-- ==== Sys2Proof/Word.lean ====
section
/-! DEFINITION. The words of the part: what the reference treats as runs of bits. -/

namespace Sys2Proof

/-- One byte as it crosses the host port (R138). -/
abbrev Byte := BitVec 8

/-- The 16-bit tag that a request frame, its reply and the update it starts carry (chapter 0.3, R57). -/
abbrev Tag := BitVec 16

/-- A grey level, 0 (black) to 15 (white): four bits for each pixel in each plane (R6, R7). -/
abbrev Level := BitVec 4

/-- The sixteen bits clocked from the temperature sensor in one cycle (R40). -/
abbrev SensorWord := BitVec 16

end Sys2Proof
end

