-- ==== Sys2Proof/Syntax.lean ====
section
/-! DEFINITION. The commands of the part: one constructor for each row of the table of operations and events. -/

namespace Sys2Proof

/-- The part's steps, each whole and indivisible (95_what_each_step_holds.md).

A step that is the arrival of one byte at the host port carries that byte; the end of a sensor cycle carries the word the
sensor gave. A step that is the taking of a request carries nothing: R146 takes the OLDEST complete frame of the receive
buffer, and the request's tag and payload are those of that frame. -/
inductive Instr where
  /-- POWER_ON_RESET (R151): power-on, or the reset pin. -/
  | powerOnReset
  /-- TRANSACTION_PREFIX (R138): the first whole byte of a transaction. -/
  | transactionPrefix (byte : Byte)
  /-- BAD_SYNC (R140): byte 0 of a frame, not the sync byte. -/
  | badSync (byte : Byte)
  /-- HEADER_TAKEN (R139): the sixth header byte, the upper half of the length. -/
  | headerTaken (byte : Byte)
  /-- FRAME_COMPLETE (R139): the last payload byte of a reserved frame. -/
  | frameComplete (byte : Byte)
  /-- SKIP_END (R141): the last byte of a skip. -/
  | skipEnd (byte : Byte)
  /-- SELECT_RELEASE (R142): the select line is released. -/
  | selectRelease
  /-- REPLY_SENT (R148): the last byte of the reply at the head is clocked out. -/
  | replySent
  /-- WAIT_REPLY_PLACED (R136): the deferred reply of the first ENDED wait is placed. -/
  | waitReplyPlaced
  /-- UNKNOWN_KIND (R146): the taking of a frame whose kind names no request. -/
  | unknownKind
  /-- STATUS (R149). -/
  | status
  /-- RESET_PART (R150): the soft reset. -/
  | resetPart
  /-- PANEL_SETUP (R4, R5). -/
  | panelSetup
  /-- WRITE_IMAGE (R8 to R10). -/
  | writeImage
  /-- FILL_IMAGE (R11). -/
  | fillImage
  /-- READ_IMAGE (R12, R13). -/
  | readImage
  /-- READ_PANEL (R12, R13). -/
  | readPanel
  /-- LOAD_WAVEFORM (R27). -/
  | loadWaveform
  /-- COMMIT_WAVEFORM (R28 to R34). -/
  | commitWaveform
  /-- ERASE_WAVEFORM (R36). -/
  | eraseWaveform
  /-- LIST_WAVEFORMS (R37). -/
  | listWaveforms
  /-- SET_BANDS (R51). -/
  | setBands
  /-- SET_SENSOR (R53). -/
  | setSensor
  /-- SAMPLE_NOW (R46). -/
  | sampleNow
  /-- SENSOR_TIMER_EXPIRY (R44). -/
  | sensorTimerExpiry
  /-- SENSOR_CYCLE_END (R41): the sixteenth bit has been clocked from the sensor. -/
  | sensorCycleEnd (word : SensorWord)
  /-- GAP_END (R41). -/
  | gapEnd
  /-- TIMEBASE_TICK (R75): one millisecond of the Timebase. -/
  | timebaseTick
  /-- START_UPDATE (R57 to R61). -/
  | startUpdate
  /-- CANCEL_UPDATE (R64). -/
  | cancelUpdate
  /-- QUERY_QUEUE (R65). -/
  | queryQueue
  /-- QUERY_TILES (R92). -/
  | queryTiles
  /-- MARK_TILES (R93, R94). -/
  | markTiles
  /-- SET_POLICY (R80). -/
  | setPolicy
  /-- STOP_ALL (R108). -/
  | stopAll
  /-- QUERY_SLOTS (R112). -/
  | querySlots
  /-- SET_RAILS (R125). -/
  | setRails
  /-- RAIL_RESUME (R124). -/
  | railResume
  /-- SET_NOTICES (R128). -/
  | setNotices
  /-- FETCH_NOTICES (R133). -/
  | fetchNotices
  /-- WAIT_UPDATE (R134). -/
  | waitUpdate
  /-- WAIT_TIME_CHECK_EXPIRY (R135): the time left of a WAITING entry is 0. -/
  | waitTimeCheckExpiry
  /-- ATTN_PULSE_END (R130): 50 µs after the latest pulse cause. -/
  | attnPulseEnd
  /-- PWR_GOOD_ACTIVE (R117): PWR_GOOD is found active. -/
  | pwrGoodActive
  /-- RAMP_TIMER_EXPIRY (R118). -/
  | rampTimerExpiry
  /-- PWR_GOOD_LOSS (R121): PWR_GOOD is found inactive. -/
  | pwrGoodLoss
  /-- DISCHARGE_TIMER_EXPIRY (R120). -/
  | dischargeTimerExpiry
  /-- FRAME_START (R99). -/
  | frameStart
  /-- ENTRY_EXAMINATION (R69): the admission pass examines its next entry. -/
  | entryExamination
  /-- FRAME_END (R103). -/
  | frameEnd
  /-- FRAME_BYTE_RECEIVED (R139): a whole byte that completes neither a header, a frame nor a skip. -/
  | frameByteReceived (byte : Byte)
  deriving DecidableEq, Repr

end Sys2Proof
end

