-- ==== Sys2Proof/WellFormed.lean ====
section
/-! DEFINITION. Which commands are well formed. -/

namespace Sys2Proof

/-- The sync byte that opens every request frame (R139, TABLE 10-1). -/
def syncByte : Byte := 0xC3#8

/-- A BAD_SYNC is the arrival of a byte that is NOT the sync byte (R140), so one that carries the sync byte is no step of
the part. Every other command is well formed with any operand: the operands are whole bytes and whole sensor words. -/
def Instr.wellFormed : Instr → Bool
  | .badSync b => b != syncByte
  | _ => true

end Sys2Proof
end

