-- ==== Sys2Proof/Decode.lean ====
section
/-! DEFINITION. The decoder of table words. The part is a block: it decodes no instruction, and no row of
spec/opcode_table.json gives any bit of a word. -/

namespace Sys2Proof

/-- The command that a word spells by the table's bits. No row of the table fixes a bit or names a field of bits, so no word
spells a command. -/
def decodeTableWord (_nbits _w : Nat) : Option Instr := none

end Sys2Proof
end

