-- ==== Sys2Proof/Config.lean ====
section
/-! DEFINITION. The capacities and fixed figures of the part (TABLE 0-4 and the rules that own them). The reference
leaves no value of the part open, so nothing here is opaque. -/

namespace Sys2Proof.Config

/-- Pixels along one side of a tile (R2). -/
def tileSide : Nat := 32

/-- The stride of the pixel planes' addresses: the widest panel the part takes (R1). -/
def planeStride : Nat := 2048

/-- Entries of the pending queue (R62). -/
def queueCapacity : Nat := 8

/-- Records of the completion list (R131). -/
def recordCapacity : Nat := 16

/-- Records one FETCH_NOTICES takes at most (R133). -/
def fetchLimit : Nat := 8

/-- Entries of the wait list, ENDED ones included (R134, R136). -/
def waitCapacity : Nat := 4

/-- Replies of the reply queue (R147). -/
def replyCapacity : Nat := 32

/-- Bytes of the receive buffer (R143). -/
def receiveBytes : Nat := 16384

/-- Bytes of the header of a request frame (R139). -/
def requestHeaderBytes : Nat := 6

/-- The largest payload of a request frame that is received (R141). -/
def maxPayload : Nat := 4112

/-- HOLD is asserted below this free count (R144). -/
def holdBelow : Nat := 4608

/-- HOLD is released at this free count and above (R144). -/
def releaseFrom : Nat := 9216

/-- Bytes of the staging buffer (R26). -/
def stagingBytes : Nat := 16384

/-- The most pixel data one request carries, and the largest chunk of a waveform set image (R9, R27). -/
def maxData : Nat := 4096

/-- The most pixels one image or panel read answers (R12). -/
def maxReadPixels : Nat := 8192

/-- The most tiles one QUERY_TILES answers (R92). -/
def maxQueryTiles : Nat := 256

/-- The count at which the idle-frame count is held (R100). -/
def maxIdle : Nat := 1000

/-- The largest residue of a tile (R77). -/
def maxResidue : Nat := 1023

/-- The rest at which a tile's rest stays (R75). -/
def maxRest : Nat := 65535

/-- The count at which the consecutive-failure count is held (R47). -/
def maxFailures : Nat := 15

end Sys2Proof.Config
end

