-- ==== Sys2Proof/Machine/State.lean ====
section
/-! DEFINITION. The state of the part, block by block as TABLE 0-1 lists it, and the state after a power-on reset. -/

namespace Sys2Proof.Machine

/-- A rectangle of pixels: x, y, width, height (chapter 0.6). -/
structure Rect where
  x : Nat
  y : Nat
  w : Nat
  h : Nat
  deriving DecidableEq, Repr

/-- A rectangle of whole tiles: tile column, tile row, counts of columns and rows (chapter 0.6). -/
structure TileRect where
  col  : Nat
  row  : Nat
  cols : Nat
  rows : Nat
  deriving DecidableEq, Repr

/-- The five waveform modes (TABLE 2-1). -/
inductive Mode where
  | clear | tone16 | tone4 | duo | quick
  deriving DecidableEq, Repr

/-- The ghost policies of an update (TABLE 4-1). -/
inductive Policy where
  | auto | strict | force
  deriving DecidableEq, Repr

/-- A drive code (R21). -/
inductive DriveCode where
  | rest | darken | lighten
  deriving DecidableEq, Repr

/-- A plane of levels: the pixels whose level is not 15, as address and level, in the canonical form of `Memory.wf`.
The pixel at column x and row y has address 2048 y + x. -/
abbrev Plane := List (Nat × Level)

/-- The Pixel Store: the panel geometry (R1), the image plane (R6) and the panel plane's two levels (R7). -/
structure PixelStore where
  setUp    : Bool
  width    : Nat
  height   : Nat
  tileCols : Nat
  tileRows : Nat
  image    : Plane
  believed : Plane
  next     : Plane
  deriving DecidableEq, Repr

/-- An installed waveform set (R22). Its mode and band are its place among the forty sets, its sequence count S the length
of `sequences`. -/
structure WaveformSet where
  /-- The frame length L. -/
  length    : Nat
  /-- The transition table: entry 16 f + t for the pair of from-level f and to-level t. -/
  table     : List Nat
  sequences : List (List DriveCode)
  charges   : List Int
  crc       : BitVec 16
  deriving DecidableEq, Repr

/-- The held-commit record (R34). -/
structure HeldCommit where
  mode    : Mode
  band    : Fin 8
  length  : Nat
  crc     : BitVec 16
  charges : List Int
  deriving DecidableEq, Repr

/-- The Waveform Store: the installed sets, 8 m + b being the place of mode number m and band b (R22); the staging buffer
(R26), as the bytes that are not 0; the held-commit record (R34). -/
structure WaveformStore where
  sets    : Vector (Option WaveformSet) 40
  staging : List Host.Cell
  held    : Option HeldCommit
  deriving DecidableEq, Repr

/-- Trigger sources (TABLE 3-1). -/
inductive TriggerSource where
  | none | frameStart | timer | railOn
  deriving DecidableEq, Repr

/-- Comparator modes (TABLE 3-3). -/
inductive ComparatorMode where
  | off | once | change | every
  deriving DecidableEq, Repr

/-- Sensor status (TABLE 3-2). -/
inductive SensorStatus where
  | noneYet | valid | stale
  deriving DecidableEq, Repr

/-- The cycle state (R41); a gap holds the milliseconds it has still to run. -/
inductive CycleState where
  | ready
  | sampling
  | gap (left : Nat)
  deriving DecidableEq, Repr

/-- The sensor settings (TABLE 3-4). -/
structure SensorSettings where
  source     : TriggerSource
  divider    : Nat
  period     : Nat
  gap        : Nat
  hysteresis : Nat
  failLimit  : Nat
  comparator : ComparatorMode
  deriving DecidableEq, Repr

/-- The Temperature Unit (chapter 3). The band table's count k is one more than the number of boundaries. -/
structure TemperatureUnit where
  cycle       : CycleState
  /-- Milliseconds until the sensor timer expires; none while it is stopped (R44). -/
  timer       : Option Nat
  settings    : SensorSettings
  /-- The effective comparator mode (R52). -/
  comparator  : ComparatorMode
  status      : SensorStatus
  /-- The T16 of the last valid sample. -/
  lastValid   : Option Int
  /-- The consecutive-failure count (R47). -/
  failures    : Nat
  boundaries  : List Int
  band        : Fin 8
  bandLatch   : Option Int
  noticeLatch : Option Int
  /-- The reference of comparator mode CHANGE: the inside result of the last valid sample (R52). -/
  reference   : Option Bool
  /-- The drop counter (R42). -/
  drops       : BitVec 8
  /-- The divider count (R43). -/
  divider     : Nat
  /-- The fresh indication (R54). -/
  fresh       : Bool
  deriving DecidableEq, Repr

/-- A pending entry (TABLE 4-2). -/
structure PendingEntry where
  tag      : Tag
  rect     : Rect
  hull     : TileRect
  mode     : Mode
  policy   : Policy
  recovery : Bool
  deriving DecidableEq, Repr

/-- The Update Scheduler: the pending queue, head first (R62). -/
structure Scheduler where
  queue : List PendingEntry
  deriving DecidableEq, Repr

/-- The condition of a tile (R76). -/
inductive Condition where
  | unknown | known
  deriving DecidableEq, Repr

/-- A tile record (TABLE 5-1). -/
structure TileRecord where
  owner     : Option (Fin 16)
  condition : Condition
  residue   : Nat
  charge    : Int
  rest      : Nat
  deriving DecidableEq, Repr

/-- The ghost policy settings (TABLE 5-2). -/
structure GhostPolicy where
  residueLimit : Nat
  chargeLimit  : Nat
  weightClear  : Nat
  weightTone16 : Nat
  weightTone4  : Nat
  weightDuo    : Nat
  weightQuick  : Nat
  settle       : Nat
  autoRecovery : Bool
  freshSample  : Bool
  deriving DecidableEq, Repr

/-- The Ghost Planner: the tile table in rows from the top, each from the left (R73), and the ghost policy (R79). -/
structure GhostPlanner where
  tiles  : List TileRecord
  policy : GhostPolicy
  deriving DecidableEq, Repr

/-- The state of a slot that is not FREE (R96). -/
inductive SlotPhase where
  | driving | stopping
  deriving DecidableEq, Repr

/-- The record of an active slot (TABLE 6-1). -/
structure Slot where
  phase     : SlotPhase
  tag       : Tag
  requested : Mode
  effective : Mode
  escalated : Bool
  recovery  : Bool
  band      : Fin 8
  rect      : Rect
  hull      : TileRect
  index     : Nat
  length    : Nat
  changed   : Nat
  deriving DecidableEq, Repr

/-- Where frame timing stands (R98, R99). -/
inductive FramePhase where
  /-- Frame timing does not run: every rail state but ON. -/
  | stopped
  /-- The next frame start is awaited. -/
  | between
  /-- A frame start has been taken and its admission pass runs; `examined` entries at the head of the queue have been
  examined and wait. -/
  | pass (examined : Nat)
  /-- The frame is being driven and its end is awaited. -/
  | driven
  deriving DecidableEq, Repr

/-- The Frame Engine: the slot table, a FREE slot being none (R95); the admission list (R97); the frame period in µs (R98);
the frame counter (R99); the idle-frame count (R100); where frame timing stands; the DRIVE_ACTIVE line (R102). -/
structure FrameEngine where
  slots       : Vector (Option Slot) 16
  admissions  : List (Fin 16)
  period      : Nat
  counter     : BitVec 16
  idle        : Nat
  phase       : FramePhase
  driveActive : Bool
  deriving DecidableEq, Repr

/-- The causes of a supply fault; the fault cause NONE is every rail state but FAULTED (R123). -/
inductive FaultCause where
  | ramp | loss
  deriving DecidableEq, Repr

/-- The rail state (R115). RISING holds the milliseconds left of the ramp timer, FALLING those of the discharge timer,
FAULTED the fault cause: in the other states no timer runs and the cause is NONE. -/
inductive RailState where
  | off
  | rising (left : Nat)
  | on
  | falling (left : Nat)
  | faulted (cause : FaultCause)
  deriving DecidableEq, Repr

/-- The Rail Controller: the rail state, the settings (TABLE 7-3) and the PWR_GOOD input as it was last found. -/
structure RailController where
  state         : RailState
  rampTimeout   : Nat
  dischargeTime : Nat
  lingerFrames  : Nat
  pwrGood       : Bool
  deriving DecidableEq, Repr

/-- The notice kinds (TABLE 8-1). -/
inductive NoticeKind where
  | done | failed | overflow | queueSpace | idle | commit | temp | sensor | rail
  deriving DecidableEq, Repr

/-- A set of notice kinds in the places of a notice mask: bit n stands for the kind numbered n (R152). -/
abbrev KindSet := BitVec 9

/-- ATTN modes (R128). -/
inductive AttnMode where
  | level | pulse
  deriving DecidableEq, Repr

/-- ATTN polarities (R128). -/
inductive Polarity where
  | activeLow | activeHigh
  deriving DecidableEq, Repr

/-- The outcome of an update (R131). -/
inductive UpdateOutcome where
  | done | aborted | refusedGhost | noWaveform
  deriving DecidableEq, Repr

/-- A completion record (R131). -/
structure CompletionRecord where
  tag       : Tag
  slot      : Option (Fin 16)
  outcome   : UpdateOutcome
  effective : Mode
  escalated : Bool
  recovery  : Bool
  band      : Fin 8
  frames    : Nat
  hull      : TileRect
  deriving DecidableEq, Repr

/-- A wait entry (TABLE 8-2). -/
structure WaitEntry where
  requestTag : Tag
  waitedTag  : Tag
  timeLeft   : Nat
  deriving DecidableEq, Repr

/-- A wait entry in state ENDED, with outcome TIMEOUT or OK (TABLE 8-2). -/
structure EndedWait where
  entry    : WaitEntry
  timedOut : Bool
  deriving DecidableEq, Repr

/-- The Notice Unit: the pending and the enabled kinds (R127, R128), ATTN mode and polarity, the completion list (R131), and
the wait list (R134) in two parts: the WAITING entries in the order they joined, and the ENDED entries whose reply is not
yet placed in the order they ended (R136). -/
structure NoticeUnit where
  kinds    : KindSet
  enables  : KindSet
  mode     : AttnMode
  polarity : Polarity
  records  : List CompletionRecord
  waits    : List WaitEntry
  ended    : List EndedWait
  deriving DecidableEq, Repr

/-- A complete request frame held in the receive buffer (R139). -/
structure Frame where
  kind    : Byte
  tag     : Tag
  payload : List Byte
  deriving DecidableEq, Repr

/-- Reply status codes (TABLE 9-4). -/
inductive Status where
  | ok | queued | held | unknownKind | badLength | badField | badRect | emptyRect | notSetUp | busy | queueFull
  | noWaveform | inUse | crcMismatch | badSet | limit | timeout | framing
  deriving DecidableEq, Repr

/-- A reply frame of the reply queue (R147). -/
structure Reply where
  kind    : Byte
  tag     : Tag
  status  : Status
  payload : List Byte
  deriving DecidableEq, Repr

/-- The framing state (TABLE 9-1). -/
inductive Framing where
  | selectWait
  /-- The header bytes received so far, at most five. -/
  | header (got : List Byte)
  /-- A frame with its kind, tag and length, and the payload bytes stored so far in its reservation. -/
  | payload (kind : Byte) (tag : Tag) (length : Nat) (got : List Byte)
  /-- The bytes still to drop. -/
  | skip (left : Nat)
  | discard
  /-- The bytes of the reply at the head already sent, and whether idle bytes have begun in this read (R148). -/
  | read (sent : Nat) (idle : Bool)
  | ignore
  deriving DecidableEq, Repr

/-- The Message Link: the framing state, the complete frames of the receive buffer, the reply queue, and the HOLD and ATTN
line drivers. The free count of the receive buffer is `rxFree`, computed from the frames held (R143). -/
structure MessageLink where
  framing : Framing
  frames  : List Frame
  replies : List Reply
  /-- HOLD is asserted (R144). -/
  hold    : Bool
  /-- ATTN is active (R129, R130). -/
  attn    : Bool
  deriving DecidableEq, Repr

/-- The state of the part, one field for each block that holds state, and the commands that wait. The Timebase holds none
of its own: each timer it steps stands with the block that uses it. -/
structure State where
  pixel   : PixelStore
  wave    : WaveformStore
  temp    : TemperatureUnit
  sched   : Scheduler
  ghost   : GhostPlanner
  frame   : FrameEngine
  rail    : RailController
  notice  : NoticeUnit
  link    : MessageLink
  /-- The commands that wait, the next one first. -/
  pending : List Instr
  deriving DecidableEq, Repr

/-- The part stops on nothing: every rule of the reference gives its step an effect, and a step whose event does not occur
in a state leaves that state as it is. This reason is raised by no meaning; it stands because the interface asks for a
type of reasons. Safe: a model that never faults proves nothing by a fault. -/
inductive Fault where
  | never
  deriving DecidableEq, Repr

/-- Why a command has no meaning. Only exec's own arms would raise it, and none does: every row is modelled. Safe. -/
inductive Refusal where
  | notModelled (mnemonic : String)
  deriving DecidableEq, Repr

/-- TABLE 5-2 after a power-on reset. -/
def GhostPolicy.reset : GhostPolicy :=
  { residueLimit := 768, chargeLimit := 12000,
    weightClear := 0, weightTone16 := 8, weightTone4 := 12, weightDuo := 16, weightQuick := 32,
    settle := 20, autoRecovery := true, freshSample := false }

/-- TABLE 3-4 after a power-on reset. -/
def SensorSettings.reset : SensorSettings :=
  { source := .timer, divider := 1, period := 1000, gap := 10, hysteresis := 16, failLimit := 3, comparator := .off }

/-- R1: no panel. -/
def PixelStore.reset : PixelStore :=
  { setUp := false, width := 0, height := 0, tileCols := 0, tileRows := 0, image := [], believed := [], next := [] }

/-- R38: no installed sets, every staging byte 0, no held commit. -/
def WaveformStore.reset : WaveformStore :=
  { sets := Vector.replicate 40 none, staging := [], held := none }

/-- R56: READY, NONE_YET, one band, everything empty, and the sensor timer started with its period. -/
def TemperatureUnit.reset : TemperatureUnit :=
  { cycle := .ready, timer := some 1000, settings := .reset, comparator := .off, status := .noneYet, lastValid := none,
    failures := 0, boundaries := [], band := 0, bandLatch := none, noticeLatch := none, reference := none, drops := 0#8,
    divider := 0, fresh := false }

/-- R113: every slot FREE, period 12000 µs, no frame timing. -/
def FrameEngine.reset : FrameEngine :=
  { slots := Vector.replicate 16 none, admissions := [], period := 12000, counter := 0#16, idle := 0, phase := .stopped,
    driveActive := false }

/-- R115 and TABLE 7-3. DESIGN CHOICE (log entry 1): PWR_GOOD is taken as inactive until it is first found active. -/
def RailController.reset : RailController :=
  { state := .off, rampTimeout := 40, dischargeTime := 30, lingerFrames := 50, pwrGood := false }

/-- R137: nothing pending, nothing enabled, LEVEL, active-low, both lists empty. -/
def NoticeUnit.reset : NoticeUnit :=
  { kinds := 0#9, enables := 0#9, mode := .level, polarity := .activeLow, records := [], waits := [], ended := [] }

/-- R151: SELECT_WAIT, nothing received, no reply, HOLD released, ATTN inactive. -/
def MessageLink.reset : MessageLink :=
  { framing := .selectWait, frames := [], replies := [], hold := false, attn := false }

/-- The part after a power-on reset (R1, R38, R56, R62, R78, R79, R113, R115, R137, R151). -/
def State.reset : State :=
  { pixel := .reset, wave := .reset, temp := .reset, sched := { queue := [] },
    ghost := { tiles := [], policy := .reset }, frame := .reset, rail := .reset, notice := .reset, link := .reset,
    pending := [] }

end Sys2Proof.Machine
end

