-- ==== Sys2Proof/Machine/Ops.lean ====
section
/-! DEFINITION. The named operations over the stores of the part: addressed memories, rectangles and tiles, the pixel
planes, the tile table and the slot table. -/

namespace Sys2Proof.Machine

/-! ### Addressed memories

A memory is the list of its entries that differ from what an unlisted address reads as (`d`), addresses strictly rising.
The staging buffer reads 0 where nothing is listed (R26), the pixel planes 15 (R5). -/

/-- What address `a` of the memory holds. -/
def Memory.read {w : Nat} (d : BitVec w) : List (Nat × BitVec w) → Nat → BitVec w
  | [], _ => d
  | (k, v) :: m, a => if a = k then v else Memory.read d m a

/-- The memory after `v` is written at address `a`. -/
def Memory.write {w : Nat} (d : BitVec w) : List (Nat × BitVec w) → Nat → BitVec w → List (Nat × BitVec w)
  | [], a, v => if v = d then [] else [(a, v)]
  | (k, u) :: m, a, v =>
    if a < k then (if v = d then (k, u) :: m else (a, v) :: (k, u) :: m)
    else if a = k then (if v = d then m else (a, v) :: m)
    else (k, u) :: Memory.write d m a v

/-- The canonical form: addresses strictly rising, no entry equal to what an unlisted address reads as. -/
def Memory.wf {w : Nat} (d : BitVec w) : List (Nat × BitVec w) → Bool
  | [] => true
  | (k, u) :: m => u != d && m.all (fun p => k < p.1) && Memory.wf d m

/-- The memory after `f a` is written at every address `a` of the list. -/
def Memory.writeEach {w : Nat} (d : BitVec w) (m : List (Nat × BitVec w)) (as : List Nat) (f : Nat → BitVec w) :
    List (Nat × BitVec w) :=
  as.foldr (fun a m => Memory.write d m a (f a)) m

/-! ### Rectangles of pixels -/

/-- The pixel at column `x` and row `y` lies in the rectangle (chapter 0.6). -/
def Rect.has (r : Rect) (x y : Nat) : Bool :=
  r.x ≤ x && x < r.x + r.w && r.y ≤ y && y < r.y + r.h

/-- The pixels of the rectangle in rows from top to bottom, each from left to right (chapter 0.6). -/
def Rect.pixels (r : Rect) : List (Nat × Nat) :=
  (List.range r.h).flatMap fun j => (List.range r.w).map fun i => (r.x + i, r.y + j)

/-- The pixels that lie in both rectangles. -/
def Rect.inter (r q : Rect) : Rect :=
  let x := max r.x q.x
  let y := max r.y q.y
  { x := x, y := y, w := min (r.x + r.w) (q.x + q.w) - x, h := min (r.y + r.h) (q.y + q.h) - y }

/-! ### Tiles -/

/-- The tile at tile column `i` and tile row `j` lies in the tile rectangle. -/
def TileRect.has (t : TileRect) (i j : Nat) : Bool :=
  t.col ≤ i && i < t.col + t.cols && t.row ≤ j && j < t.row + t.rows

/-- The tiles of the tile rectangle in rows from top to bottom, each from left to right. -/
def TileRect.tiles (t : TileRect) : List (Nat × Nat) :=
  (List.range t.rows).flatMap fun j => (List.range t.cols).map fun i => (t.col + i, t.row + j)

/-- Two hulls overlap when they have at least one tile in common (R59). -/
def TileRect.overlaps (t u : TileRect) : Bool :=
  0 < t.cols && 0 < t.rows && 0 < u.cols && 0 < u.rows &&
  t.col < u.col + u.cols && u.col < t.col + t.cols && t.row < u.row + u.rows && u.row < t.row + t.rows

/-- The tiles across a length of `n` pixels: ceil(n/32) (R2). -/
def tilesAcross (n : Nat) : Nat := (n + (Config.tileSide - 1)) / Config.tileSide

/-- The hull of a clipped rectangle: the tiles its pixels lie in (R59). -/
def hullOf (r : Rect) : TileRect :=
  let c := r.x / Config.tileSide
  let t := r.y / Config.tileSide
  { col := c, row := t,
    cols := (r.x + r.w - 1) / Config.tileSide + 1 - c, rows := (r.y + r.h - 1) / Config.tileSide + 1 - t }

/-- The pixel extent of a tile rectangle on the panel (R3). -/
def PixelStore.extent (p : PixelStore) (t : TileRect) : Rect :=
  let x := Config.tileSide * t.col
  let y := Config.tileSide * t.row
  { x := x, y := y, w := min (Config.tileSide * t.cols) (p.width - x), h := min (Config.tileSide * t.rows) (p.height - y) }

/-- The tile at tile column `i` and tile row `j`, as a tile rectangle. -/
def oneTile (i j : Nat) : TileRect := { col := i, row := j, cols := 1, rows := 1 }

/-- The rectangle lies inside the panel; the sums do not wrap (R9). -/
def PixelStore.inside (p : PixelStore) (r : Rect) : Bool :=
  r.x + r.w ≤ p.width && r.y + r.h ≤ p.height

/-- The tile rectangle lies on the grid; the sums do not wrap (R92). -/
def PixelStore.onGrid (p : PixelStore) (t : TileRect) : Bool :=
  t.col + t.cols ≤ p.tileCols && t.row + t.rows ≤ p.tileRows

/-- The part of the rectangle that lies on the panel, none when no pixel remains (R58). -/
def PixelStore.clip (p : PixelStore) (r : Rect) : Option Rect :=
  if r.x < p.width ∧ r.y < p.height ∧ 0 < r.w ∧ 0 < r.h then
    some { r with w := min r.w (p.width - r.x), h := min r.h (p.height - r.y) }
  else none

/-! ### The pixel planes -/

/-- The level of every pixel at a PANEL_SETUP, and of every pixel a plane does not list (R5). -/
def white : Level := 15#4

/-- The address of the pixel at column `x` and row `y` in a plane. -/
def pixelAddress (x y : Nat) : Nat := Config.planeStride * y + x

/-- The level of the pixel at column `x` and row `y`. -/
def Plane.level (p : Plane) (x y : Nat) : Level := Memory.read white p (pixelAddress x y)

/-- The plane after every pixel (x, y) of the rectangle takes the level `f x y`. -/
def Plane.paint (p : Plane) (r : Rect) (f : Nat → Nat → Level) : Plane :=
  r.pixels.foldr (fun q m => Memory.write white m (pixelAddress q.1 q.2) (f q.1 q.2)) p

/-! ### The tile table -/

/-- A tile record as PANEL_SETUP forms it (R78). -/
def TileRecord.fresh : TileRecord :=
  { owner := none, condition := .unknown, residue := 0, charge := 0, rest := Config.maxRest }

/-- The record of the tile at tile column `i` and tile row `j`. -/
def State.tile (s : State) (i j : Nat) : TileRecord :=
  s.ghost.tiles.getD (j * s.pixel.tileCols + i) .fresh

/-- The tile table after the record of every tile (i, j) of the tile rectangle is replaced by `f i j` of it. -/
def State.mapTiles (s : State) (t : TileRect) (f : Nat → Nat → TileRecord → TileRecord) : State :=
  let c := s.pixel.tileCols
  { s with ghost.tiles := s.ghost.tiles.mapIdx fun k r => if t.has (k % c) (k / c) then f (k % c) (k / c) r else r }

/-- Releases the tiles of a hull: owner NONE and rest 0, and the condition given, if one is (R90, R91, R78). -/
def State.releaseTiles (s : State) (hull : TileRect) (c : Option Condition) : State :=
  s.mapTiles hull fun _ _ r => { r with owner := none, rest := 0, condition := c.getD r.condition }

/-! ### The slot table -/

/-- The active slots with their numbers, from slot 0 (R95). -/
def FrameEngine.active (f : FrameEngine) : List (Fin 16 × Slot) :=
  (List.finRange 16).filterMap fun i => f.slots[i].map fun sl => (i, sl)

/-- The count of active slots (R95). -/
def FrameEngine.activeCount (f : FrameEngine) : Nat := f.active.length

/-- The lowest-numbered FREE slot (R71). -/
def FrameEngine.freeSlot (f : FrameEngine) : Option (Fin 16) :=
  (List.finRange 16).find? fun i => f.slots[i].isNone

/-- The frame engine with slot `i` holding `v`. -/
def FrameEngine.setSlot (f : FrameEngine) (i : Fin 16) (v : Option Slot) : FrameEngine :=
  { f with slots := f.slots.set i.val v i.isLt }

/-- The drive set of a slot, which is always a rectangle: the extent of its hull for CLEAR, its own rectangle for a partial
mode (R95). -/
def PixelStore.driveSet (p : PixelStore) (sl : Slot) : Rect :=
  if sl.effective = .clear then p.extent sl.hull else sl.rect

/-- The active slots that use the set of a mode and band (R32). -/
def FrameEngine.users (f : FrameEngine) (m : Mode) (b : Fin 8) : Nat :=
  f.active.countP fun q => q.2.effective = m && q.2.band = b

/-- No slot is active and the pending queue is empty (R67, R100, R107). -/
def State.quiet (s : State) : Bool := s.frame.activeCount = 0 && s.sched.queue.isEmpty

/-- Some pending entry or active slot carries the tag (R134, R135). -/
def State.carries (s : State) (t : Tag) : Bool :=
  s.sched.queue.any (fun e => e.tag = t) || s.frame.active.any (fun q => q.2.tag = t)

end Sys2Proof.Machine
end

