-- ==== Sys2Proof/Machine/Operands.lean ====
section
/-! DEFINITION. The operands of requests and the fields of replies: byte places, little-endian numbers, the enumeration
codes and the record layouts of chapter 10. -/

namespace Sys2Proof.Machine

/-! ### Numbers on the wire (R152) -/

/-- One byte. -/
def encU8 (n : Nat) : List Byte := [BitVec.ofNat 8 n]

/-- A 16-bit number, least significant byte first. -/
def encU16 (n : Nat) : List Byte := [BitVec.ofNat 8 n, BitVec.ofNat 8 (n / 256)]

/-- A 32-bit number, least significant byte first. -/
def encU32 (n : Nat) : List Byte := encU16 n ++ encU16 (n / 65536)

/-- A signed 16-bit number in two's complement. -/
def encI16 (z : Int) : List Byte := encU16 (BitVec.ofInt 16 z).toNat

/-- A flag byte: 1 for yes or on, 0 for no or off. -/
def encFlag (b : Bool) : List Byte := [if b then 1#8 else 0#8]

/-- A signed 16-bit number, or −32768 for an empty one. -/
def encLatch (z : Option Int) : List Byte := encI16 (z.getD (-32768))

/-- The byte of a payload at an offset. -/
def u8At (p : List Byte) (i : Nat) : Nat := (p.getD i 0#8).toNat

/-- The 16-bit number of a payload at an offset. -/
def u16At (p : List Byte) (i : Nat) : Nat := u8At p i + 256 * u8At p (i + 1)

/-- The signed 16-bit number of a payload at an offset. -/
def i16At (p : List Byte) (i : Nat) : Int := (BitVec.ofNat 16 (u16At p i)).toInt

/-- The tag of a payload at an offset. -/
def tagAt (p : List Byte) (i : Nat) : Tag := BitVec.ofNat 16 (u16At p i)

/-- The rectangle of a payload at an offset: four 16-bit fields (chapter 10.1). -/
def rectAt (p : List Byte) (i : Nat) : Rect :=
  { x := u16At p i, y := u16At p (i + 2), w := u16At p (i + 4), h := u16At p (i + 6) }

/-- The tile rectangle of a payload at an offset: four bytes (chapter 10.1). -/
def tileRectAt (p : List Byte) (i : Nat) : TileRect :=
  { col := u8At p i, row := u8At p (i + 1), cols := u8At p (i + 2), rows := u8At p (i + 3) }

/-- The notice mask of a payload at an offset; bits 9 to 15 are ignored (R152). -/
def maskAt (p : List Byte) (i : Nat) : KindSet := BitVec.ofNat 9 (u16At p i)

/-- A tag as sent. -/
def encTag (t : Tag) : List Byte := encU16 t.toNat

/-- A rectangle as sent. -/
def encRect (r : Rect) : List Byte := encU16 r.x ++ encU16 r.y ++ encU16 r.w ++ encU16 r.h

/-- A tile rectangle as sent. -/
def encTileRect (t : TileRect) : List Byte := encU8 t.col ++ encU8 t.row ++ encU8 t.cols ++ encU8 t.rows

/-- A clamp of a received number to the nearer end of its range (chapter 0.6). -/
def clamp (lo hi n : Nat) : Nat := max lo (min hi n)

/-- A clamp of a received signed number. -/
def clampInt (lo hi z : Int) : Int := max lo (min hi z)

/-! ### Enumeration codes (TABLE 10-3, TABLE 9-4) -/

/-- The number of a mode (TABLE 2-1). -/
def Mode.code : Mode → Nat
  | .clear => 0
  | .tone16 => 1
  | .tone4 => 2
  | .duo => 3
  | .quick => 4

/-- The mode of a number, none above 4 (R19). -/
def Mode.ofCode : Nat → Option Mode
  | 0 => some .clear
  | 1 => some .tone16
  | 2 => some .tone4
  | 3 => some .duo
  | 4 => some .quick
  | _ => none

/-- The band of a number, none above 7 (R28). -/
def bandOfCode (n : Nat) : Option (Fin 8) := if h : n < 8 then some ⟨n, h⟩ else none

/-- The number of a policy (TABLE 4-1). -/
def Policy.code : Policy → Nat
  | .auto => 0
  | .strict => 1
  | .force => 2

/-- The policy of a number, none above 2 (R57). -/
def Policy.ofCode : Nat → Option Policy
  | 0 => some .auto
  | 1 => some .strict
  | 2 => some .force
  | _ => none

/-- The number of a trigger source (TABLE 3-1). -/
def TriggerSource.code : TriggerSource → Nat
  | .none => 0
  | .frameStart => 1
  | .timer => 2
  | .railOn => 3

/-- The trigger source of a number, none above 3 (R53). -/
def TriggerSource.ofCode : Nat → Option TriggerSource
  | 0 => some .none
  | 1 => some .frameStart
  | 2 => some .timer
  | 3 => some .railOn
  | _ => Option.none

/-- The number of a comparator mode (TABLE 3-3). -/
def ComparatorMode.code : ComparatorMode → Nat
  | .off => 0
  | .once => 1
  | .change => 2
  | .every => 3

/-- The comparator mode of a number, none above 3 (R53). -/
def ComparatorMode.ofCode : Nat → Option ComparatorMode
  | 0 => some .off
  | 1 => some .once
  | 2 => some .change
  | 3 => some .every
  | _ => none

/-- The code of a sensor status. -/
def SensorStatus.code : SensorStatus → Nat
  | .noneYet => 0
  | .valid => 1
  | .stale => 2

/-- The code of a tile condition. -/
def Condition.code : Condition → Nat
  | .unknown => 0
  | .known => 1

/-- The code of the state of an active slot; FREE is 0. -/
def SlotPhase.code : SlotPhase → Nat
  | .driving => 1
  | .stopping => 2

/-- The code of an outcome. -/
def UpdateOutcome.code : UpdateOutcome → Nat
  | .done => 0
  | .aborted => 1
  | .refusedGhost => 2
  | .noWaveform => 3

/-- The code of a rail state. -/
def RailState.code : RailState → Nat
  | .off => 0
  | .rising _ => 1
  | .on => 2
  | .falling _ => 3
  | .faulted _ => 4

/-- The code of the fault cause; NONE outside FAULTED (R123). -/
def RailState.causeCode : RailState → Nat
  | .faulted .ramp => 1
  | .faulted .loss => 2
  | _ => 0

/-- The code of an ATTN mode. -/
def AttnMode.code : AttnMode → Nat
  | .level => 0
  | .pulse => 1

/-- The ATTN mode of a number, none above 1 (R128). -/
def AttnMode.ofCode : Nat → Option AttnMode
  | 0 => some .level
  | 1 => some .pulse
  | _ => none

/-- The code of a polarity. -/
def Polarity.code : Polarity → Nat
  | .activeLow => 0
  | .activeHigh => 1

/-- The polarity of a number, none above 1 (R128). -/
def Polarity.ofCode : Nat → Option Polarity
  | 0 => some .activeLow
  | 1 => some .activeHigh
  | _ => none

/-- The number of a notice kind (TABLE 8-1). -/
def NoticeKind.number : NoticeKind → Nat
  | .done => 0
  | .failed => 1
  | .overflow => 2
  | .queueSpace => 3
  | .idle => 4
  | .commit => 5
  | .temp => 6
  | .sensor => 7
  | .rail => 8

/-- The code of a reply status (TABLE 9-4). -/
def Status.code : Status → Nat
  | .ok => 0
  | .queued => 1
  | .held => 2
  | .unknownKind => 16
  | .badLength => 17
  | .badField => 18
  | .badRect => 19
  | .emptyRect => 20
  | .notSetUp => 21
  | .busy => 22
  | .queueFull => 23
  | .noWaveform => 24
  | .inUse => 25
  | .crcMismatch => 26
  | .badSet => 27
  | .limit => 28
  | .timeout => 29
  | .framing => 31

/-! ### Request kinds (TABLE 10-2) -/

namespace Kind
def status : Byte := 0x01#8
def resetPart : Byte := 0x02#8
def panelSetup : Byte := 0x10#8
def writeImage : Byte := 0x11#8
def fillImage : Byte := 0x12#8
def readImage : Byte := 0x13#8
def readPanel : Byte := 0x14#8
def loadWaveform : Byte := 0x20#8
def commitWaveform : Byte := 0x21#8
def eraseWaveform : Byte := 0x22#8
def listWaveforms : Byte := 0x23#8
def setBands : Byte := 0x30#8
def setSensor : Byte := 0x31#8
def sampleNow : Byte := 0x32#8
def startUpdate : Byte := 0x40#8
def cancelUpdate : Byte := 0x41#8
def queryQueue : Byte := 0x42#8
def queryTiles : Byte := 0x50#8
def markTiles : Byte := 0x51#8
def setPolicy : Byte := 0x52#8
def stopAll : Byte := 0x60#8
def querySlots : Byte := 0x61#8
def setRails : Byte := 0x70#8
def railResume : Byte := 0x71#8
def setNotices : Byte := 0x80#8
def fetchNotices : Byte := 0x81#8
def waitUpdate : Byte := 0x82#8
end Kind

/-- The kinds that name a request; every other kind, 0 included, names none. -/
def knownKinds : List Byte :=
  [Kind.status, Kind.resetPart, Kind.panelSetup, Kind.writeImage, Kind.fillImage, Kind.readImage, Kind.readPanel,
   Kind.loadWaveform, Kind.commitWaveform, Kind.eraseWaveform, Kind.listWaveforms, Kind.setBands, Kind.setSensor,
   Kind.sampleNow, Kind.startUpdate, Kind.cancelUpdate, Kind.queryQueue, Kind.queryTiles, Kind.markTiles, Kind.setPolicy,
   Kind.stopAll, Kind.querySlots, Kind.setRails, Kind.railResume, Kind.setNotices, Kind.fetchNotices, Kind.waitUpdate]

/-! ### Levels in L4 (R13) -/

/-- The levels two to a byte, the earlier in the upper four bits; the last byte of an odd count ends in four 0 bits. -/
def packL4 : List Level → List Byte
  | [] => []
  | [a] => [a ++ 0#4]
  | a :: b :: l => (a ++ b) :: packL4 l

/-! ### Frames and records as reported (TABLE 10-1, TABLES 10-6 to 10-10) -/

/-- A reply frame as it is sent: sync 0x3C, kind, tag, status, payload length, payload (TABLE 10-1). -/
def Reply.bytes (r : Reply) : List Byte :=
  0x3C#8 :: r.kind :: (encTag r.tag ++ encU8 r.status.code ++ encU16 r.payload.length ++ r.payload)

/-- TABLE 10-6: an installed set with its mode, its band and its count of users. -/
def encSet (m : Nat) (b : Nat) (w : WaveformSet) (users : Nat) : List Byte :=
  encU8 m ++ encU8 b ++ encU8 w.length ++ encU8 w.sequences.length ++ encU16 w.crc.toNat ++ encU8 users ++ encU8 0

/-- TABLE 10-7: a pending entry with its position. -/
def encEntry (pos : Nat) (e : PendingEntry) : List Byte :=
  encU8 pos ++ encFlag e.recovery ++ encTag e.tag ++ encRect e.rect ++ encTileRect e.hull ++ encU8 e.mode.code ++
  encU8 e.policy.code

/-- The slot number of a record, 0xFF where there is none (R152). -/
def encSlotNo (i : Option (Fin 16)) : List Byte :=
  match i with
  | some i => encU8 i.val
  | none => [0xFF#8]

/-- TABLE 10-8: a tile record. -/
def encTile (t : TileRecord) : List Byte :=
  encSlotNo t.owner ++ encU8 t.condition.code ++ encU16 t.residue ++ encI16 t.charge ++ encU16 t.rest

/-- The byte of two flags: bit 0 escalated, bit 1 recovery. -/
def encFlags (escalated recovery : Bool) : List Byte :=
  encU8 ((if escalated then 1 else 0) + (if recovery then 2 else 0))

/-- TABLE 10-9: a slot record; a FREE slot is 26 bytes of 0 (R112). -/
def encSlot : Option Slot → List Byte
  | none => List.replicate 26 0#8
  | some sl =>
    encU8 sl.phase.code ++ encFlags sl.escalated sl.recovery ++ encTag sl.tag ++ encU8 sl.requested.code ++
    encU8 sl.effective.code ++ encU8 sl.band.val ++ encU8 sl.index ++ encU8 sl.length ++ encU8 0 ++ encRect sl.rect ++
    encTileRect sl.hull ++ encU32 sl.changed

/-- TABLE 10-10: a completion record. -/
def encRecord (r : CompletionRecord) : List Byte :=
  encTag r.tag ++ encSlotNo r.slot ++ encU8 r.outcome.code ++ encU8 r.effective.code ++ encFlags r.escalated r.recovery ++
  encU8 r.band.val ++ encU8 r.frames ++ encTileRect r.hull

/-- The held flag, the held mode and the held band; the latter two 0 when no commit is held (TABLES 10-5 and 10-11). -/
def encHeld : Option HeldCommit → List Byte
  | none => encFlag false ++ encU8 0 ++ encU8 0
  | some h => encFlag true ++ encU8 h.mode.code ++ encU8 h.band.val

end Sys2Proof.Machine
end

