-- ==== Sys2Proof/Machine/Flags.lean ====
section
/-! DEFINITION. The lines and marks that follow from other state: the free count and HOLD, the pending kinds and ATTN, and
the reply queue with the ENDED waits that go before every other reply. -/

namespace Sys2Proof.Machine

/-! ### The receive buffer and HOLD -/

/-- The bytes a frame reserves (R139, R143). -/
def Frame.reserved (f : Frame) : Nat := Config.requestHeaderBytes + f.payload.length

/-- The bytes the unfinished frame reserves (R143). -/
def Framing.reserved : Framing → Nat
  | .payload _ _ n _ => Config.requestHeaderBytes + n
  | _ => 0

/-- The bytes the frames of the receive buffer reserve, complete and unfinished. -/
def MessageLink.reserved (l : MessageLink) : Nat :=
  (l.frames.map Frame.reserved).sum + l.framing.reserved

/-- The free count of the receive buffer (R143). -/
def MessageLink.rxFree (l : MessageLink) : Nat := Config.receiveBytes - l.reserved

/-- HOLD drawn from the free count with hysteresis (R144). -/
def MessageLink.drawHold (l : MessageLink) : MessageLink :=
  { l with
    hold := if l.rxFree < Config.holdBelow then true
            else if Config.releaseFrom ≤ l.rxFree then false
            else l.hold }

/-! ### The pending kinds and ATTN -/

/-- The set of one notice kind. -/
def NoticeKind.bit (k : NoticeKind) : KindSet := BitVec.twoPow 9 k.number

/-- The kind is in the set. -/
def KindSet.mem (k : NoticeKind) (S : KindSet) : Bool := S.getLsbD k.number

/-- The condition that makes ATTN active in mode LEVEL (R129). -/
def State.attnCondition (s : State) : Bool :=
  !s.link.replies.isEmpty || s.notice.kinds &&& s.notice.enables != 0#9

/-- ATTN drawn after an event's change: in mode LEVEL from the condition of R129; in mode PULSE a cause begins or extends a
pulse, and otherwise the line stays as it is (R130). -/
def State.drawAttn (s : State) (cause : Bool) : State :=
  { s with link.attn :=
      match s.notice.mode with
      | .level => s.attnCondition
      | .pulse => s.link.attn || cause }

/-- A kind joins the pending set (R127). A kind that was not pending and is enabled is a pulse cause (R130). -/
def State.raise (k : NoticeKind) (s : State) : State :=
  let s1 := { s with notice.kinds := s.notice.kinds ||| k.bit }
  s1.drawAttn (KindSet.mem k s.notice.enables && !KindSet.mem k s.notice.kinds)

/-- The kinds of a set leave the pending set (R127). -/
def State.drop (S : KindSet) (s : State) : State :=
  let s1 := { s with notice.kinds := s.notice.kinds &&& ~~~S }
  s1.drawAttn false

/-! ### The reply queue and the waits -/

/-- A reply joins the tail of the reply queue (R147); the first reply of an empty queue is a pulse cause (R130). -/
def State.pushReply (r : Reply) (s : State) : State :=
  let s1 := { s with link.replies := s.link.replies ++ [r] }
  s1.drawAttn s.link.replies.isEmpty

/-- The reply at the head leaves the reply queue (R148). -/
def State.popReply (s : State) : State :=
  let s1 := { s with link.replies := s.link.replies.tail }
  s1.drawAttn false

/-- The reply queue has a place (R145 to R147). -/
def MessageLink.hasRoom (l : MessageLink) : Bool := l.replies.length < Config.replyCapacity

/-- The payload of a reply to WAIT_UPDATE: the waited tag and the form (TABLE 10-5). -/
def waitPayload (waited : Tag) (form : Nat) : List Byte := encTag waited ++ encU8 form

/-- The deferred reply of a wait that has ended (R136, R154). -/
def EndedWait.reply (e : EndedWait) : Reply :=
  { kind := Kind.waitUpdate, tag := e.entry.requestTag, status := if e.timedOut then .timeout else .ok,
    payload := waitPayload e.entry.waitedTag (if e.timedOut then 2 else 1) }

/-- Places the replies of ENDED waits in their order, while the reply queue has room (R136). -/
def State.serveList : List EndedWait → State → State
  | [], s => { s with notice.ended := [] }
  | e :: es, s => if s.link.hasRoom then State.serveList es (s.pushReply e.reply)
    else { s with notice.ended := e :: es }

/-- Places the replies of the ENDED waits for which there is room (R136). -/
def State.serveWaits (s : State) : State := State.serveList s.notice.ended s

/-- A reply made on receipt: every place goes first to the ENDED waits; the reply takes a place that is left, or is dropped
(R145). -/
def State.receiptReply (r : Reply) (s : State) : State :=
  let s1 := s.serveWaits
  if s1.link.hasRoom then s1.pushReply r else s1

/-- Ends the waits on the tags an event reported, once the event has made its own changes: a WAITING entry whose tag was
reported and is carried by nothing any longer becomes ENDED with outcome OK (R135), and the ENDED entries are served. -/
def State.endWaits (tags : List Tag) (s : State) : State :=
  let gone : WaitEntry → Bool := fun w => tags.contains w.waitedTag && !s.carries w.waitedTag
  let s1 := { s with
    notice.waits := s.notice.waits.filter fun w => !gone w,
    notice.ended := s.notice.ended ++ (s.notice.waits.filter gone).map fun w => EndedWait.mk w false }
  s1.serveWaits

/-! ### The completion list -/

/-- A completion record joins the completion list: a full list first loses its oldest record and OVERFLOW is raised (R132);
DONE is pending (R127); a failure outcome raises FAILED (R131). -/
def State.joinRecord (r : CompletionRecord) (s : State) : State :=
  let s1 := if Config.recordCapacity ≤ s.notice.records.length
    then ({ s with notice.records := s.notice.records.tail } : State).raise .overflow else s
  let s2 := ({ s1 with notice.records := s1.notice.records ++ [r] } : State).raise .done
  if r.outcome = .done then s2 else s2.raise .failed

end Sys2Proof.Machine
end

