-- ==== Sys2Proof/Machine/Taking.lean ====
section
/-! DEFINITION. The taking of requests (R146): the oldest complete frame, handed to its owner, answered, and its reservation
released, in one event. -/

namespace Sys2Proof.Machine

/-- What a step of the part answers. -/
abbrev Outcome := Host.Outcome State Fault Refusal

/-- What the owner of a request answers: the state; the status and payload of the reply, none for a wait whose reply is
deferred (R134); and the tags of the entries that left the pending queue (R62). -/
structure Answer where
  state    : State
  reply    : Option (Status × List Byte)
  reported : List Tag := []

/-- A reply with its status and payload. -/
def answer (st : Status) (payload : List Byte) (s : State) : Answer := { state := s, reply := some (st, payload) }

/-- A refusal that changes no state and carries the status alone (R154). -/
def refuse (st : Status) (s : State) : Answer := answer st [] s

/-- A request taken, with the payload of its OK reply. -/
def answerOk (payload : List Byte) (s : State) : Answer := answer .ok payload s

/-- Requests are taken while the reply queue has a place that no ENDED wait claims (R136, R146). -/
def State.canTake (s : State) : Bool := s.link.hasRoom && s.notice.ended.isEmpty

/-- The oldest complete frame, if its kind is one the step takes and requests can be taken; its reservation is released and
HOLD follows (R143, R144, R146). -/
def takeFrame (accepts : Byte → Bool) (s : State) : Option (Frame × State) :=
  match s.link.frames with
  | [] => none
  | f :: fs =>
    if accepts f.kind && s.canTake then
      some (f, { s with link := ({ s.link with frames := fs } : MessageLink).drawHold })
    else none

/-- The end of a taking: the reply is placed at the tail of the reply queue (R146), and the waits on the tags reported are
tested once the event has made all its own changes, its reply included (R135). -/
def answerFrame (f : Frame) (a : Answer) : State :=
  let s := match a.reply with
    | some (st, payload) => a.state.pushReply { kind := f.kind, tag := f.tag, status := st, payload := payload }
    | none => a.state
  if a.reported.isEmpty then s else s.endWaits a.reported

/-- The taking of a request: where the oldest complete frame is one the step takes, its owner carries it out and the reply
is placed. Where it is not, the event does not occur and nothing changes (log entry 2). -/
def takeRequest (accepts : Byte → Bool) (body : Frame → State → Answer) (s : State) : Outcome :=
  match takeFrame accepts s with
  | some (f, s1) => .next (answerFrame f (body f s1))
  | none => .next s

/-- The taking of a request of one kind. -/
def request (kind : Byte) (body : Frame → State → Answer) (s : State) : Outcome :=
  takeRequest (fun k => k == kind) body s

/-- A request whose payload must have exactly the fixed length n (R153): any other length is refused with BAD_LENGTH before
every other check. -/
def fixedLength (n : Nat) (body : Frame → State → Answer) (f : Frame) (s : State) : Answer :=
  if f.payload.length = n then body f s else refuse .badLength s

end Sys2Proof.Machine
end

