-- ==== Sys2Proof/Machine/Panel.lean ====
section
/-! DEFINITION. Chapter 1: the panel geometry, the pixel formats, and the panel and pixel requests. -/

namespace Sys2Proof.Machine

/-- The pixel formats (TABLE 1-3). -/
inductive PixelFormat where
  | l4 | l1 | l8
  deriving DecidableEq, Repr

/-- The format of a code, none outside the three (R9). -/
def PixelFormat.ofCode : Nat → Option PixelFormat
  | 0 => some .l4
  | 1 => some .l1
  | 2 => some .l8
  | _ => none

/-- The alignment a format asks of x and width (TABLE 1-3). -/
def PixelFormat.aligned (fmt : PixelFormat) (r : Rect) : Bool :=
  match fmt with
  | .l4 => r.x % 2 = 0 && r.w % 2 = 0
  | .l1 => r.x % 8 = 0 && r.w % 8 = 0
  | .l8 => true

/-- The bytes of pixel data of a rectangle (TABLE 1-3). -/
def PixelFormat.dataBytes (fmt : PixelFormat) (r : Rect) : Nat :=
  match fmt with
  | .l4 => r.w * r.h / 2
  | .l1 => r.w * r.h / 8
  | .l8 => r.w * r.h

/-- The level of the pixel numbered n, in the order of the rectangle, in a run of pixel data (R8). -/
def PixelFormat.decodeLevel (fmt : PixelFormat) (data : List Byte) (n : Nat) : Level :=
  match fmt with
  | .l4 => let b := data.getD (n / 2) 0#8
           if n % 2 = 0 then b.extractLsb' 4 4 else b.extractLsb' 0 4
  | .l1 => if (data.getD (n / 8) 0#8).getLsbD (7 - n % 8) then 15#4 else 0#4
  | .l8 => (data.getD n 0#8).extractLsb' 4 4

/-- The number of the pixel at column x and row y in the order of the rectangle (chapter 1.3). -/
def Rect.pixelNumber (r : Rect) (x y : Nat) : Nat := (y - r.y) * r.w + (x - r.x)

/-- The levels of a plane over a rectangle, in the order of chapter 1.3. -/
def Plane.levels (p : Plane) (r : Rect) : List Level := r.pixels.map fun q => p.level q.1 q.2

/-- The pixel store a PANEL_SETUP establishes for a clamped width and height (R5, R2). -/
def PixelStore.setup (w h : Nat) : PixelStore :=
  { setUp := true, width := w, height := h, tileCols := tilesAcross w, tileRows := tilesAcross h,
    image := [], believed := [], next := [] }

/-- R4, R5. -/
def panelSetupBody (f : Frame) (s : State) : Answer :=
  if s.rail.state = .off ∧ s.quiet then
    let p := PixelStore.setup (clamp 64 2048 (u16At f.payload 0)) (clamp 64 1536 (u16At f.payload 2))
    let period := clamp 8000 40000 (u16At f.payload 4)
    answerOk (encU16 p.width ++ encU16 p.height ++ encU16 period ++ encU8 p.tileCols ++ encU8 p.tileRows)
      { s with
        pixel := p,
        ghost.tiles := List.replicate (p.tileCols * p.tileRows) .fresh,
        frame.period := period }
  else refuse .busy s

/-- R9, R10: the checks in their order, then the write. -/
def writeImageBody (f : Frame) (s : State) : Answer :=
  let p := f.payload
  let r := rectAt p 2
  if p.length < 10 then refuse .badLength s
  else if !s.pixel.setUp then refuse .notSetUp s
  else match PixelFormat.ofCode (u8At p 0) with
    | none => refuse .badField s
    | some fmt =>
      if r.w = 0 ∨ r.h = 0 then refuse .emptyRect s
      else if !s.pixel.inside r then refuse .badRect s
      else if !fmt.aligned r then refuse .badRect s
      else if Config.maxData < fmt.dataBytes r then refuse .badLength s
      else if p.length ≠ 10 + fmt.dataBytes r then refuse .badLength s
      else answerOk (encU32 (r.w * r.h))
        { s with pixel.image :=
            s.pixel.image.paint r fun x y => fmt.decodeLevel (p.drop 10) (r.pixelNumber x y) }

/-- The checks that FILL_IMAGE and the two reads share after the length: set up, not empty, inside (R11, R12). -/
def rectRefusal (s : State) (r : Rect) : Option Status :=
  if !s.pixel.setUp then some .notSetUp
  else if r.w = 0 ∨ r.h = 0 then some .emptyRect
  else if !s.pixel.inside r then some .badRect
  else none

/-- R11. -/
def fillImageBody (f : Frame) (s : State) : Answer :=
  let r := rectAt f.payload 0
  match rectRefusal s r with
  | some st => refuse st s
  | none =>
    let level := min (u8At f.payload 8) 15
    answerOk (encU8 level ++ encU8 0 ++ encU32 (r.w * r.h))
      { s with pixel.image := s.pixel.image.paint r fun _ _ => BitVec.ofNat 4 level }

/-- R12, R13, for the plane given. -/
def readBody (plane : PixelStore → Plane) (f : Frame) (s : State) : Answer :=
  let r := rectAt f.payload 0
  match rectRefusal s r with
  | some st => refuse st s
  | none =>
    if r.x % 2 ≠ 0 ∨ Config.maxReadPixels < r.w * r.h then refuse .badRect s
    else answerOk (encRect r ++ packL4 ((plane s.pixel).levels r)) s

/-- PANEL_SETUP (R4, R5). -/
def execPanelSetup (s : State) : Outcome := request Kind.panelSetup (fixedLength 6 panelSetupBody) s

/-- WRITE_IMAGE (R8 to R10). -/
def execWriteImage (s : State) : Outcome := request Kind.writeImage writeImageBody s

/-- FILL_IMAGE (R11). -/
def execFillImage (s : State) : Outcome := request Kind.fillImage (fixedLength 10 fillImageBody) s

/-- READ_IMAGE (R12, R13). -/
def execReadImage (s : State) : Outcome := request Kind.readImage (fixedLength 8 (readBody PixelStore.image)) s

/-- READ_PANEL (R12, R13). -/
def execReadPanel (s : State) : Outcome := request Kind.readPanel (fixedLength 8 (readBody PixelStore.believed)) s

end Sys2Proof.Machine
end

