-- ==== Sys2Proof/Machine/Notices.lean ====
section
/-! DEFINITION. Chapter 8: the notice requests, the waits, and the end of an ATTN pulse. -/

namespace Sys2Proof.Machine

/-- R128 to R130: kinds marked to be set join the enable set, then kinds marked to be cleared leave it; mode and polarity are
replaced, and ATTN is redrawn. A selection of PULSE from LEVEL first makes the line inactive; a kind pending that the
request itself enables is a pulse cause. -/
def setNoticesBody (f : Frame) (s : State) : Answer :=
  let p := f.payload
  match AttnMode.ofCode (u8At p 4), Polarity.ofCode (u8At p 5) with
  | some mode, some polarity =>
    let enables := (s.notice.enables ||| maskAt p 0) &&& ~~~(maskAt p 2)
    let gained := s.notice.kinds &&& enables &&& ~~~s.notice.enables != 0#9
    let s1 : State := { s with
      notice := { s.notice with enables := enables, mode := mode, polarity := polarity },
      link.attn := s.link.attn && s.notice.mode = .pulse }
    answerOk (encU16 enables.toNat ++ encU8 mode.code ++ encU8 polarity.code) (s1.drawAttn gained)
  | _, _ => refuse .badField s

/-- R133: the pending set is copied, up to eight records are removed, DONE leaves with the last of them, and the kinds
marked, DONE apart, are acknowledged. -/
def fetchNoticesBody (f : Frame) (s : State) : Answer :=
  let copied := s.notice.records.take Config.fetchLimit
  let left := s.notice.records.drop Config.fetchLimit
  let acked := maskAt f.payload 0 &&& ~~~NoticeKind.done.bit
  let gone := if left.isEmpty then acked ||| NoticeKind.done.bit else acked
  answerOk (encU16 s.notice.kinds.toNat ++ encU8 left.length ++ encU8 copied.length ++ copied.flatMap encRecord)
    (({ s with notice.records := left } : State).drop gone)

/-- R134. -/
def waitUpdateBody (f : Frame) (s : State) : Answer :=
  let waited := tagAt f.payload 0
  if !s.carries waited then answerOk (waitPayload waited 0) s
  else if Config.waitCapacity ≤ s.notice.waits.length + s.notice.ended.length then refuse .limit s
  else
    let w : WaitEntry := { requestTag := f.tag, waitedTag := waited, timeLeft := 5 * max 4 (u16At f.payload 2) }
    { state := { s with notice.waits := s.notice.waits ++ [w] }, reply := none }

/-- SET_NOTICES (R128 to R130). -/
def execSetNotices (s : State) : Outcome := request Kind.setNotices (fixedLength 6 setNoticesBody) s

/-- FETCH_NOTICES (R133). -/
def execFetchNotices (s : State) : Outcome := request Kind.fetchNotices (fixedLength 2 fetchNoticesBody) s

/-- WAIT_UPDATE (R134). -/
def execWaitUpdate (s : State) : Outcome := request Kind.waitUpdate (fixedLength 4 waitUpdateBody) s

/-- WAIT_TIME_CHECK_EXPIRY (R135): the first WAITING entry whose time left is 0 becomes ENDED with outcome TIMEOUT, and its
reply is placed if there is room (R136). -/
def execWaitTimeCheckExpiry (s : State) : Outcome :=
  match s.notice.waits.find? fun w => w.timeLeft = 0 with
  | some w =>
    .next ({ s with notice := { s.notice with
      waits := s.notice.waits.eraseP fun w => w.timeLeft = 0,
      ended := s.notice.ended ++ [EndedWait.mk w true] } } : State).serveWaits
  | none => .next s

/-- WAIT_REPLY_PLACED (R136): the deferred reply of the first ENDED entry is placed once there is room, and the entry leaves
the wait list. -/
def execWaitReplyPlaced (s : State) : Outcome :=
  match s.notice.ended with
  | e :: es =>
    if s.link.hasRoom then .next (({ s with notice.ended := es } : State).pushReply e.reply) else .next s
  | [] => .next s

/-- ATTN_PULSE_END (R130): 50 µs after the latest pulse cause the line returns inactive. -/
def execAttnPulseEnd (s : State) : Outcome :=
  if s.notice.mode = .pulse ∧ s.link.attn then .next { s with link.attn := false } else .next s

end Sys2Proof.Machine
end

