-- ==== Sys2Proof/Machine/Link.lean ====
section
/-! DEFINITION. Chapter 9: the bytes and transactions of the host port, the replies made on receipt, the sending of replies,
STATUS and the taking of an unknown kind. -/

namespace Sys2Proof.Machine

/-! ### Receipt -/

/-- The framing reasons (TABLE 10-3). -/
def reasonSync : Nat := 0
def reasonCut : Nat := 1
def reasonOverrun : Nat := 2

/-- The tag that stands where a frame's tag was not received (TABLE 9-2). -/
def noTag : Tag := 0xFFFF#16

/-- A FRAMING reply with its reason (R154). -/
def framingReply (reason : Nat) (kind : Byte) (tag : Tag) : Reply :=
  { kind := kind, tag := tag, status := .framing, payload := encU8 reason }

/-- A new framing state; HOLD follows the reservation it carries (R143, R144). -/
def State.setFraming (fr : Framing) (s : State) : State :=
  { s with link := ({ s.link with framing := fr } : MessageLink).drawHold }

/-- The tag of two header bytes, the less significant first (R139). -/
def headerTag (lo hi : Byte) : Tag := hi ++ lo

/-- A header of kind, tag and length is taken (R139, R141, R143). -/
def State.takeHeader (kind : Byte) (tag : Tag) (length : Nat) (s : State) : State :=
  if Config.maxPayload < length then
    (s.setFraming (.skip length)).receiptReply { kind := kind, tag := tag, status := .badLength, payload := [] }
  else if s.link.rxFree < Config.requestHeaderBytes + length then
    (s.setFraming (if length = 0 then .header [] else .skip length)).receiptReply (framingReply reasonOverrun kind tag)
  else if length = 0 then
    ({ s with link.frames := s.link.frames ++ [{ kind := kind, tag := tag, payload := [] }] } : State).setFraming (.header [])
  else s.setFraming (.payload kind tag length [])

/-- TRANSACTION_PREFIX (R138): the first whole byte of a transaction. -/
def execTransactionPrefix (b : Byte) (s : State) : Outcome :=
  match s.link.framing with
  | .selectWait =>
    .next (s.setFraming (if b = 0x01#8 then .header [] else if b = 0x02#8 then .read 0 false else .ignore))
  | _ => .next s

/-- BAD_SYNC (R140): byte 0 of a frame is not the sync byte. -/
def execBadSync (b : Byte) (s : State) : Outcome :=
  match s.link.framing with
  | .header [] =>
    if b = syncByte then .next s
    else .next ((s.setFraming .discard).receiptReply (framingReply reasonSync 0#8 noTag))
  | _ => .next s

/-- HEADER_TAKEN (R139, R141, R143): byte 5 of a header arrives. -/
def execHeaderTaken (b : Byte) (s : State) : Outcome :=
  match s.link.framing with
  | .header [_, kind, tagLo, tagHi, lenLo] =>
    .next (s.takeHeader kind (headerTag tagLo tagHi) (lenLo.toNat + 256 * b.toNat))
  | _ => .next s

/-- FRAME_COMPLETE (R139): the last payload byte of a reserved frame arrives; the frame is available for taking. -/
def execFrameComplete (b : Byte) (s : State) : Outcome :=
  match s.link.framing with
  | .payload kind tag length got =>
    if got.length + 1 = length then
      .next (({ s with link.frames := s.link.frames ++ [{ kind := kind, tag := tag, payload := got ++ [b] }] } : State).setFraming
        (.header []))
    else .next s
  | _ => .next s

/-- SKIP_END (R141): the byte that brings the skip count to 0 arrives and is dropped. -/
def execSkipEnd (_b : Byte) (s : State) : Outcome :=
  match s.link.framing with
  | .skip 1 => .next (s.setFraming (.header []))
  | _ => .next s

/-- FRAME_BYTE_RECEIVED (R139, R141): a whole byte short of completing a header, a frame or a skip. In a read it is a byte
clocked short of the end of a reply, or an idle byte (R148; log entry 5). -/
def execFrameByteReceived (b : Byte) (s : State) : Outcome :=
  match s.link.framing with
  | .header [] => if b = syncByte then .next (s.setFraming (.header [b])) else .next s
  | .header got => if got.length < 5 then .next (s.setFraming (.header (got ++ [b]))) else .next s
  | .payload kind tag length got =>
    if got.length + 1 < length then .next (s.setFraming (.payload kind tag length (got ++ [b]))) else .next s
  | .skip n => if 1 < n then .next (s.setFraming (.skip (n - 1))) else .next s
  | .read sent false =>
    match s.link.replies with
    | [] => .next (s.setFraming (.read 0 true))
    | r :: _ => if sent + 1 < r.bytes.length then .next (s.setFraming (.read (sent + 1) false)) else .next s
  | _ => .next s

/-- The reply to a frame cut at the release of the select line, none where no frame is unfinished (R142). -/
def Framing.cutReply : Framing → Option Reply
  | .header (_ :: rest) =>
    some (framingReply reasonCut (rest.getD 0 0#8)
      (match rest with
       | _ :: lo :: hi :: _ => headerTag lo hi
       | _ => noTag))
  | .payload kind tag _ _ => some (framingReply reasonCut kind tag)
  | _ => none

/-- SELECT_RELEASE (R138, R142): the transaction ends; an unfinished frame is dropped with its reservation. -/
def execSelectRelease (s : State) : Outcome :=
  let s1 := s.setFraming .selectWait
  match s.link.framing.cutReply with
  | some r => .next (s1.receiptReply r)
  | none => .next s1

/-! ### Sending -/

/-- REPLY_SENT (R148): in a read whose idle bytes have not begun, the last byte of the reply at the head is clocked out, all
its others having been clocked, and the reply leaves the queue; the next one begins with the next byte. -/
def execReplySent (s : State) : Outcome :=
  match s.link.framing, s.link.replies with
  | .read sent false, r :: _ =>
    if sent + 1 = r.bytes.length then .next (s.setFraming (.read 0 false)).popReply else .next s
  | _, _ => .next s

/-! ### Requests of the Message Link -/

/-- UNKNOWN_KIND (R146): a frame whose kind names no request. -/
def execUnknownKind (s : State) : Outcome :=
  takeRequest (fun k => !knownKinds.contains k) (fun _ s => refuse .unknownKind s) s

/-- The STATUS record (R149, TABLE 10-11). -/
def State.statusRecord (s : State) : List Byte :=
  encU8 s.rail.state.code ++ encU8 s.rail.state.causeCode ++ encU8 s.frame.activeCount ++ encU8 s.sched.queue.length ++
  encU8 s.notice.records.length ++ encU8 s.link.replies.length ++ encU16 s.link.rxFree ++ encLatch s.temp.lastValid ++
  encU8 s.temp.band.val ++ encU8 s.temp.status.code ++ encU8 s.temp.drops.toNat ++ encU8 s.temp.comparator.code ++
  encLatch s.temp.bandLatch ++ encLatch s.temp.noticeLatch ++ encHeld s.wave.held ++ encFlag s.pixel.setUp ++
  encU16 s.frame.counter.toNat

/-- STATUS (R149). -/
def execStatus (s : State) : Outcome :=
  request Kind.status (fixedLength 0 fun _ s => answerOk s.statusRecord s) s

end Sys2Proof.Machine
end

