-- ==== Sys2Proof/Machine/Waveform.lean ====
section
/-! DEFINITION. Chapter 2: quantization, the waveform sets, the staging buffer, and the waveform requests. -/

namespace Sys2Proof.Machine

/-! ### Modes and lookups -/

/-- The representable level of a mode nearest to a level (R20, TABLE 2-2). -/
def quantize (m : Mode) (l : Level) : Level :=
  match m with
  | .clear | .tone16 => l
  | .tone4 => if l.toNat ≤ 2 then 0#4 else if l.toNat ≤ 7 then 5#4 else if l.toNat ≤ 12 then 10#4 else 15#4
  | .duo | .quick => if l.toNat ≤ 7 then 0#4 else 15#4

/-- The place of the set of a mode and band among the forty. -/
def setPlace (m : Mode) (b : Fin 8) : Fin 40 :=
  ⟨8 * m.code + b.val, by cases m <;> simp only [Mode.code] <;> omega⟩

/-- The installed set of a mode and band, none when it is absent (R24). -/
def WaveformStore.set? (w : WaveformStore) (m : Mode) (b : Fin 8) : Option WaveformSet := w.sets[setPlace m b]

/-- The store with `v` for the set of a mode and band. -/
def WaveformStore.putSet (w : WaveformStore) (m : Mode) (b : Fin 8) (v : Option WaveformSet) : WaveformStore :=
  { w with sets := w.sets.set (setPlace m b).val v (setPlace m b).isLt }

/-- The sequence a set's transition table names for a from-level and a to-level (R22, R24). -/
def WaveformSet.sequenceOf (w : WaveformSet) (f t : Level) : Nat := w.table.getD (16 * f.toNat + t.toNat) 0

/-- The charge lookup in a set (R24). -/
def WaveformSet.charge (w : WaveformSet) (f t : Level) : Int := w.charges.getD (w.sequenceOf f t) 0

/-- The code lookup in a set, for a frame index (R24). -/
def WaveformSet.code (w : WaveformSet) (f t : Level) (i : Nat) : DriveCode :=
  (w.sequences.getD (w.sequenceOf f t) []).getD i .rest

/-! ### The CRC (R29) -/

/-- One shift of the CRC register: left by one place, and the polynomial where a 1 is shifted out. -/
def crcShift (r : BitVec 16) : BitVec 16 := if r.msb then (r <<< 1) ^^^ 0x1021#16 else r <<< 1

/-- One byte taken into the CRC register: into its upper eight bits, then eight shifts. -/
def crcByte (r : BitVec 16) (b : Byte) : BitVec 16 :=
  crcShift (crcShift (crcShift (crcShift (crcShift (crcShift (crcShift (crcShift (r ^^^ (b ++ 0#8)))))))))

/-- The CRC-16 of a run of bytes. -/
def crc16 (bs : List Byte) : BitVec 16 := bs.foldl crcByte 0xFFFF#16

/-! ### The set image (R25, R30, R31) -/

/-- The byte of the staging buffer at an offset (R26). -/
def WaveformStore.stagingByte (w : WaveformStore) (a : Nat) : Byte := Memory.read 0#8 w.staging a

/-- The store after a chunk is copied into the staging buffer, byte n of the chunk to offset + n (R27). -/
def WaveformStore.load (w : WaveformStore) (offset : Nat) (chunk : List Byte) : WaveformStore :=
  let places := (List.range chunk.length).map fun n => offset + n
  { w with staging := Memory.writeEach 0#8 w.staging places fun a => chunk.getD (a - offset) 0#8 }

/-- The staging bytes 0 to n − 1. -/
def WaveformStore.stagingBytes (w : WaveformStore) (n : Nat) : List Byte := (List.range n).map w.stagingByte

/-- The bytes of one sequence of frame length L (R25). -/
def sequenceBytes (L : Nat) : Nat := (L + 3) / 4

/-- The two-bit code of frame i of sequence k in the image at the start of the staging buffer (R25). -/
def WaveformStore.rawCode (w : WaveformStore) (L k i : Nat) : BitVec 2 :=
  (w.stagingByte (260 + k * sequenceBytes L + i / 4)).extractLsb' (6 - 2 * (i % 4)) 2

/-- The drive code of two bits; 3 is not a drive code (R21). -/
def DriveCode.ofBits (c : BitVec 2) : Option DriveCode :=
  if c = 0#2 then some .rest else if c = 1#2 then some .darken else if c = 2#2 then some .lighten else none

/-- The sequences of the image, as the codes of frames 0 to L − 1. -/
def WaveformStore.imageSequences (w : WaveformStore) (L S : Nat) : List (List DriveCode) :=
  (List.range S).map fun k => (List.range L).map fun i => (DriveCode.ofBits (w.rawCode L k i)).getD .rest

/-- The transition table of the image. -/
def WaveformStore.imageTable (w : WaveformStore) : List Nat :=
  (List.range 256).map fun i => (w.stagingByte (4 + i)).toNat

/-- The charge of a sequence: its DARKEN codes less its LIGHTEN codes (R21, R31). -/
def sequenceCharge (seq : List DriveCode) : Int := (seq.count .darken : Int) - (seq.count .lighten : Int)

/-- The set formed from the image at the start of the staging buffer, with the charges and the CRC given (R31, R35). -/
def WaveformStore.imageSet (w : WaveformStore) (charges : List Int) (crc : BitVec 16) : WaveformSet :=
  let L := (w.stagingByte 2).toNat
  { length := L, table := w.imageTable, sequences := w.imageSequences L (w.stagingByte 3).toNat,
    charges := charges, crc := crc }

/-- The first place of sequences 0 to S − 1, frames 0 to L − 1 that holds code 3, as 128 k + i (R30). -/
def WaveformStore.badCode (w : WaveformStore) (L S : Nat) : Option Nat :=
  ((List.range S).flatMap fun k => (List.range L).map fun i => (k, i)).findSome? fun q =>
    if w.rawCode L q.1 q.2 = 3#2 then some (128 * q.1 + q.2) else none

/-- The first content check of R30 that the image fails, as its reason code and position. -/
def WaveformStore.imageFault (w : WaveformStore) (m : Mode) (b : Fin 8) (length : Nat) : Option (Nat × Nat) :=
  let L := (w.stagingByte 2).toNat
  let S := (w.stagingByte 3).toNat
  if length < 4 then some (1, 0)
  else if (w.stagingByte 0).toNat ≠ m.code then some (2, 0)
  else if (w.stagingByte 1).toNat ≠ b.val then some (2, 1)
  else if L = 0 ∨ 120 < L then some (3, 2)
  else if S = 0 ∨ 64 < S then some (4, 3)
  else if length ≠ 260 + S * sequenceBytes L then some (5, 260 + S * sequenceBytes L)
  else match w.imageTable.findIdx? fun e => S ≤ e with
    | some i => some (6, i)
    | none => (w.badCode L S).map fun pos => (7, pos)

/-! ### Requests -/

/-- R27. -/
def loadWaveformBody (f : Frame) (s : State) : Answer :=
  let offset := u16At f.payload 0
  let chunk := f.payload.drop 2
  if f.payload.length < 2 then refuse .badLength s
  else if Config.maxData < chunk.length then refuse .badLength s
  else if s.wave.held.isSome then refuse .inUse s
  else if Config.stagingBytes < offset + chunk.length then refuse .badField s
  else answerOk (encU16 offset ++ encU16 chunk.length)
    { s with wave := s.wave.load offset chunk }

/-- R28 to R34. -/
def commitWaveformBody (f : Frame) (s : State) : Answer :=
  let length := u16At f.payload 2
  let sent := BitVec.ofNat 16 (u16At f.payload 4)
  match Mode.ofCode (u8At f.payload 0), bandOfCode (u8At f.payload 1) with
  | some m, some b =>
    if Config.stagingBytes < length then refuse .badField s
    else if s.wave.held.isSome then refuse .inUse s
    else
      let crc := crc16 (s.wave.stagingBytes length)
      if crc ≠ sent then answer .crcMismatch (encU16 crc.toNat) s
      else match s.wave.imageFault m b length with
        | some (reason, pos) => answer .badSet (encU8 reason ++ encU8 0 ++ encU16 pos) s
        | none =>
          let L := (s.wave.stagingByte 2).toNat
          let S := (s.wave.stagingByte 3).toNat
          let charges := (s.wave.imageSequences L S).map sequenceCharge
          let payload := fun replaced : Bool =>
            encU8 m.code ++ encU8 b.val ++ encU8 L ++ encU8 S ++ encFlag replaced ++ encU8 0
          if s.frame.users m b = 0 then
            answerOk (payload (s.wave.set? m b).isSome)
              { s with wave := s.wave.putSet m b (some (s.wave.imageSet charges crc)) }
          else
            answer .held (payload true)
              { s with wave.held := some { mode := m, band := b, length := length, crc := crc, charges := charges } }
  | _, _ => refuse .badField s

/-- R36. -/
def eraseWaveformBody (f : Frame) (s : State) : Answer :=
  match Mode.ofCode (u8At f.payload 0), bandOfCode (u8At f.payload 1) with
  | some m, some b =>
    if s.wave.held.isSome then refuse .inUse s
    else if (s.wave.set? m b).isNone then refuse .noWaveform s
    else if s.frame.users m b ≠ 0 then refuse .inUse s
    else answerOk [] { s with wave := s.wave.putSet m b none }
  | _, _ => refuse .badField s

/-- Every mode, in the order of its number. -/
def Mode.all : List Mode := [.clear, .tone16, .tone4, .duo, .quick]

/-- The installed sets with their modes and bands, in order of mode and then of band (R37). -/
def WaveformStore.installed (w : WaveformStore) : List (Mode × Fin 8 × WaveformSet) :=
  Mode.all.flatMap fun m => (List.finRange 8).filterMap fun b => (w.set? m b).map fun v => (m, b, v)

/-- R37. -/
def listWaveformsBody (_ : Frame) (s : State) : Answer :=
  let sets := s.wave.installed
  answerOk (encU8 sets.length ++ encHeld s.wave.held ++
    sets.flatMap fun q => encSet q.1.code q.2.1.val q.2.2 (s.frame.users q.1 q.2.1)) s

/-- The installation of a held commit, where one of the slots an event freed used its set and no slot uses it any longer;
the COMMIT notice is raised (R35, R111). -/
def State.installHeld (freed : List Slot) (s : State) : State :=
  match s.wave.held with
  | none => s
  | some h =>
    if freed.any (fun sl => sl.effective = h.mode && sl.band = h.band) ∧ s.frame.users h.mode h.band = 0 then
      let w := s.wave.putSet h.mode h.band (some (s.wave.imageSet h.charges h.crc))
      ({ s with wave := { w with held := none } } : State).raise .commit
    else s

/-- LOAD_WAVEFORM (R27). -/
def execLoadWaveform (s : State) : Outcome := request Kind.loadWaveform loadWaveformBody s

/-- COMMIT_WAVEFORM (R28 to R34). -/
def execCommitWaveform (s : State) : Outcome := request Kind.commitWaveform (fixedLength 6 commitWaveformBody) s

/-- ERASE_WAVEFORM (R36). -/
def execEraseWaveform (s : State) : Outcome := request Kind.eraseWaveform (fixedLength 2 eraseWaveformBody) s

/-- LIST_WAVEFORMS (R37). -/
def execListWaveforms (s : State) : Outcome := request Kind.listWaveforms (fixedLength 0 listWaveformsBody) s

end Sys2Proof.Machine
end

