-- ==== Sys2Proof/Machine/Planner.lean ====
section
/-! DEFINITION. Chapter 5: the admission plan and its arithmetic, the writes of an admission, and the requests of the Ghost
Planner. -/

namespace Sys2Proof.Machine

/-! ### The quantities of a plan (TABLE 5-3) -/

/-- The weight of a mode in the ghost policy (TABLE 5-2). -/
def GhostPolicy.weight (g : GhostPolicy) : Mode → Nat
  | .clear => g.weightClear
  | .tone16 => g.weightTone16
  | .tone4 => g.weightTone4
  | .duo => g.weightDuo
  | .quick => g.weightQuick

/-- The rectangle pixels of the tile (i, j): those of the entry's clipped rectangle that lie in the tile (chapter 5.3). -/
def State.tilePixels (s : State) (e : PendingEntry) (i j : Nat) : List (Nat × Nat) :=
  (e.rect.inter (s.pixel.extent (oneTile i j))).pixels

/-- The target of a rectangle pixel: its image level quantized to the mode (R82; R88 for CLEAR). -/
def State.target (s : State) (m : Mode) (x y : Nat) : Level := quantize m (s.pixel.image.level x y)

/-- The change count of the tile (i, j): its rectangle pixels whose target differs from their believed level (R82, R88). -/
def State.changeCount (s : State) (e : PendingEntry) (m : Mode) (i j : Nat) : Nat :=
  (s.tilePixels e i j).countP fun p => s.target m p.1 p.2 ≠ s.pixel.believed.level p.1 p.2

/-- ceil(w × c / 1024) (R83). -/
def increment (w c : Nat) : Nat := (w * c + 1023) / 1024

/-- A charge saturated to −32768 to +32767 (R77). -/
def saturate (z : Int) : Int := max (-32768) (min 32767 z)

/-- The charge of the sequence that the set of a mode and band names for a pair of levels (R24). -/
def State.pairCharge (s : State) (m : Mode) (b : Fin 8) (f t : Level) : Int :=
  match s.wave.set? m b with
  | some w => w.charge f t
  | none => 0

/-- The projected residue of the tile (i, j) (R83). -/
def State.projectedResidue (s : State) (e : PendingEntry) (i j : Nat) : Nat :=
  min Config.maxResidue ((s.tile i j).residue + increment (s.ghost.policy.weight e.mode) (s.changeCount e e.mode i j))

/-- The sum of the charges of the requested mode's sequences over the rectangle pixels of the tile (i, j) (R84). -/
def State.chargeSum (s : State) (e : PendingEntry) (b : Fin 8) (i j : Nat) : Int :=
  ((s.tilePixels e i j).map fun p =>
    s.pairCharge e.mode b (s.pixel.believed.level p.1 p.2) (s.target e.mode p.1 p.2)).sum

/-- The projected charge of the tile (i, j), saturated once (R84). -/
def State.projectedCharge (s : State) (e : PendingEntry) (b : Fin 8) (i j : Nat) : Int :=
  saturate ((s.tile i j).charge + s.chargeSum e b i j)

/-- The clear target of a pixel: its image level inside the entry's rectangle, its believed level outside (R88). -/
def State.clearTarget (s : State) (e : PendingEntry) (x y : Nat) : Level :=
  if e.rect.has x y then s.pixel.image.level x y else s.pixel.believed.level x y

/-- The clear charge of the tile (i, j), over every pixel of the tile (R88). -/
def State.clearCharge (s : State) (e : PendingEntry) (b : Fin 8) (i j : Nat) : Int :=
  saturate (((s.pixel.extent (oneTile i j)).pixels.map fun p =>
    s.pairCharge .clear b (s.pixel.believed.level p.1 p.2) (s.clearTarget e p.1 p.2)).sum)

/-- The clear residue of the tile (i, j) (R88). -/
def State.clearResidue (s : State) (e : PendingEntry) (i j : Nat) : Nat :=
  increment s.ghost.policy.weightClear (s.changeCount e .clear i j)

/-! ### The plan -/

/-- One tile of the hull makes escalation needed (R85). -/
def State.tileEscalates (s : State) (e : PendingEntry) (b : Fin 8) (i j : Nat) : Bool :=
  (s.tile i j).condition = .unknown || s.ghost.policy.residueLimit ≤ s.projectedResidue e i j ||
  s.ghost.policy.chargeLimit ≤ (s.projectedCharge e b i j).natAbs

/-- Escalation is needed (R85). -/
def State.escalates (s : State) (e : PendingEntry) (b : Fin 8) : Bool :=
  e.hull.tiles.any fun t => s.tileEscalates e b t.1 t.2

/-- The result of a plan: to drive, with the effective mode and the escalation flag, or a refusal with its outcome. -/
inductive Plan where
  | drive (effective : Mode) (escalated : Bool)
  | refused (outcome : UpdateOutcome) (effective : Mode) (escalated : Bool)
  deriving DecidableEq, Repr

/-- The plan of an admissible entry in band b (R81, R85 to R87, TABLE 5-4). -/
def State.plan (s : State) (e : PendingEntry) (b : Fin 8) : Plan :=
  if (s.wave.set? e.mode b).isNone then .refused .noWaveform e.mode false
  else if e.mode = .clear then .drive .clear false
  else if !s.escalates e b then .drive e.mode false
  else match e.policy with
    | .auto => if (s.wave.set? .clear b).isNone then .refused .noWaveform .clear true else .drive .clear true
    | .strict => .refused .refusedGhost e.mode false
    | .force => .drive e.mode false

/-- The changed-pixel count of a plan that drives in the effective mode (R87). -/
def State.changedPixels (s : State) (e : PendingEntry) (eff : Mode) : Nat :=
  (e.hull.tiles.map fun t => s.changeCount e eff t.1 t.2).sum

/-- The residue and charge a plan writes to the tile (i, j) (R87, R89). -/
def State.plannedTile (s : State) (e : PendingEntry) (eff : Mode) (b : Fin 8) (i j : Nat) (r : TileRecord) : TileRecord :=
  if eff = .clear then { r with residue := s.clearResidue e i j, charge := s.clearCharge e b i j }
  else { r with residue := s.projectedResidue e i j, charge := s.projectedCharge e b i j }

/-- The next level an admission latches for a pixel of the drive set (R15). -/
def State.latchLevel (s : State) (e : PendingEntry) (eff : Mode) (x y : Nat) : Level :=
  if e.rect.has x y then s.target eff x y else s.pixel.believed.level x y

/-- The slot record of an admission (R71). -/
def State.admittedSlot (s : State) (e : PendingEntry) (eff : Mode) (esc : Bool) (b : Fin 8) : Slot :=
  { phase := .driving, tag := e.tag, requested := e.mode, effective := eff, escalated := esc, recovery := e.recovery,
    band := b, rect := e.rect, hull := e.hull, index := 0,
    length := match s.wave.set? eff b with
      | some w => w.length
      | none => 0,
    changed := s.changedPixels e eff }

/-- An entry takes slot i: the slot is filled, the tiles of its hull are claimed and written, and the next levels of its
drive set are latched, all from the state as it stands (R15, R71, R89, R97). -/
def State.fillSlot (s : State) (i : Fin 16) (e : PendingEntry) (eff : Mode) (esc : Bool) (b : Fin 8) : State :=
  let sl := s.admittedSlot e eff esc b
  let s1 := s.mapTiles e.hull fun x y r => { s.plannedTile e eff b x y r with owner := some i }
  { s1 with
    frame := { s.frame.setSlot i (some sl) with admissions := s.frame.admissions ++ [i] },
    pixel.next := s.pixel.next.paint (s.pixel.driveSet sl) (s.latchLevel e eff) }

/-! ### Requests -/

/-- R92. -/
def queryTilesBody (f : Frame) (s : State) : Answer :=
  let t := tileRectAt f.payload 0
  if !s.pixel.setUp then refuse .notSetUp s
  else if t.cols = 0 ∨ t.rows = 0 then refuse .emptyRect s
  else if !s.pixel.onGrid t then refuse .badRect s
  else if Config.maxQueryTiles < t.cols * t.rows then refuse .limit s
  else answerOk (encTileRect t ++ t.tiles.flatMap fun q => encTile (s.tile q.1 q.2)) s

/-- A MARK_TILES action on a tile record: FORGET (0) or ABSOLVE (1); an owned tile is skipped (R94). -/
def markTile (action : Nat) (r : TileRecord) : TileRecord :=
  if r.owner.isSome then r
  else if action = 0 then { r with condition := .unknown }
  else { r with residue := 0, charge := 0, condition := .known }

/-- R93, R94. -/
def markTilesBody (f : Frame) (s : State) : Answer :=
  let t := tileRectAt f.payload 0
  let action := u8At f.payload 4
  if !s.pixel.setUp then refuse .notSetUp s
  else if 1 < action then refuse .badField s
  else if t.cols = 0 ∨ t.rows = 0 then refuse .emptyRect s
  else if !s.pixel.onGrid t then refuse .badRect s
  else
    let skipped := t.tiles.countP fun q => (s.tile q.1 q.2).owner.isSome
    answerOk (encU16 (t.cols * t.rows - skipped) ++ encU16 skipped) (s.mapTiles t fun _ _ r => markTile action r)

/-- The ghost policy in the layout of its request (TABLE 10-5). -/
def encPolicy (g : GhostPolicy) : List Byte :=
  encU16 g.residueLimit ++ encU16 g.chargeLimit ++ encU16 g.settle ++ encU8 g.weightClear ++ encU8 g.weightTone16 ++
  encU8 g.weightTone4 ++ encU8 g.weightDuo ++ encU8 g.weightQuick ++ encFlag g.autoRecovery ++ encFlag g.freshSample ++ encU8 0

/-- R80. -/
def setPolicyBody (f : Frame) (s : State) : Answer :=
  let p := f.payload
  if 1 < u8At p 11 ∨ 1 < u8At p 12 then refuse .badField s
  else
    let g : GhostPolicy :=
      { residueLimit := clamp 1 1023 (u16At p 0), chargeLimit := clamp 1 32767 (u16At p 2), settle := clamp 0 2000 (u16At p 4),
        weightClear := u8At p 6, weightTone16 := u8At p 7, weightTone4 := u8At p 8, weightDuo := u8At p 9,
        weightQuick := u8At p 10, autoRecovery := u8At p 11 = 1, freshSample := u8At p 12 = 1 }
    answerOk (encPolicy g) { s with ghost.policy := g }

/-- QUERY_TILES (R92). -/
def execQueryTiles (s : State) : Outcome := request Kind.queryTiles (fixedLength 4 queryTilesBody) s

/-- MARK_TILES (R93, R94). -/
def execMarkTiles (s : State) : Outcome := request Kind.markTiles (fixedLength 6 markTilesBody) s

/-- SET_POLICY (R80). -/
def execSetPolicy (s : State) : Outcome := request Kind.setPolicy (fixedLength 14 setPolicyBody) s

end Sys2Proof.Machine
end

