-- ==== Sys2Proof/Machine/Temperature.lean ====
section
/-! DEFINITION. Chapter 3: the sensor cycle, its triggers, the band selection, the comparator, and the sensor requests. -/

namespace Sys2Proof.Machine

/-! ### Samples and bands -/

/-- The T16 of a sensor word, none for a failed sample (R40). -/
def decodeSample (w : SensorWord) : Option Int :=
  if w = 0xFFFF#16 then none else some (w.extractLsb' 4 12).toInt

/-- The direct band of a temperature: the number of boundaries at or below it (R49). A table of the part has at most seven
boundaries, so the bound of 7 is never the lesser there. -/
def directBand (bs : List Int) (t : Int) : Fin 8 :=
  ⟨min (bs.countP fun b => 16 * b ≤ t) 7, by omega⟩

/-- The sample is inside the current band c, widened by the hysteresis h (R50). Boundary b_i stands at place i − 1. -/
def insideBand (bs : List Int) (c : Fin 8) (h : Nat) (t : Int) : Bool :=
  (c.val = 0 || 16 * bs.getD (c.val - 1) 0 - h ≤ t) && (c.val = bs.length || t < 16 * bs.getD c.val 0 + h)

/-- The sample readiness offered to the admission pass (R54). -/
def TemperatureUnit.ready (u : TemperatureUnit) : Bool :=
  u.fresh || u.status = .stale || u.settings.source = .none

/-! ### Triggers and the end of a cycle -/

/-- A trigger: a cycle starts in READY; in SAMPLING and GAP the trigger is dropped and counted (R42). -/
def TemperatureUnit.trigger (u : TemperatureUnit) : TemperatureUnit :=
  match u.cycle with
  | .ready => { u with cycle := .sampling }
  | _ => { u with drops := u.drops + 1#8 }

/-- The end of a failed cycle (R47). -/
def State.failedSample (s : State) : State :=
  let n := min (s.temp.failures + 1) Config.maxFailures
  if s.temp.status ≠ .stale ∧ s.temp.settings.failLimit ≤ n then
    ({ s with temp.failures := n, temp.status := .stale } : State).raise .sensor
  else { s with temp.failures := n }

/-- The comparator raises TEMP for a sample: the notice is raised and the notice latch takes the sample (R52). -/
def State.raiseTemp (t : Int) (s : State) : State :=
  ({ s with temp.noticeLatch := some t } : State).raise .temp

/-- The comparator at a valid sample, with the sample's inside result (R52). -/
def State.compare (t : Int) (inside : Bool) (s : State) : State :=
  match s.temp.comparator with
  | .off => s
  | .once => if inside then s else ({ s with temp.comparator := .off } : State).raiseTemp t
  | .change =>
    let s1 : State := { s with temp.reference := some inside }
    match s.temp.reference with
    | none => s1
    | some r => if r = inside then s1 else s1.raiseTemp t
  | .every => s.raiseTemp t

/-- The end of a valid cycle (R48): the sample, the status, the fresh indication, the band (R50), the comparator (R52). -/
def State.validSample (t : Int) (s : State) : State :=
  let inside := insideBand s.temp.boundaries s.temp.band s.temp.settings.hysteresis t
  let u := { s.temp with lastValid := some t, failures := 0, status := .valid, fresh := true }
  let u := if inside then u else { u with band := directBand u.boundaries t, bandLatch := some t }
  ({ s with temp := u } : State).compare t inside

/-- A frame start given to the Temperature Unit: under source FRAME_START the divider count advances, and where it reaches
the frame divider it returns to 0 and the frame start is a trigger (R43). -/
def TemperatureUnit.frameStart (u : TemperatureUnit) : TemperatureUnit :=
  if u.settings.source = .frameStart then
    if u.settings.divider ≤ u.divider + 1 then ({ u with divider := 0 } : TemperatureUnit).trigger
    else { u with divider := u.divider + 1 }
  else u

/-- The RAIL_ON event: the fresh indication is cleared, and under source RAIL_ON the event is a trigger (R45). -/
def TemperatureUnit.railOn (u : TemperatureUnit) : TemperatureUnit :=
  let u := { u with fresh := false }
  if u.settings.source = .railOn then u.trigger else u

/-- One millisecond of the Timebase: the sensor timer and a gap are stepped (R41, R44). -/
def TemperatureUnit.tick (u : TemperatureUnit) : TemperatureUnit :=
  { u with
    timer := u.timer.map (· - 1),
    cycle := match u.cycle with
      | .gap n => .gap (n - 1)
      | c => c }

/-- The sensor timer started with the full period under source TIMER, stopped under any other (R44, R53, R56). -/
def SensorSettings.startTimer (g : SensorSettings) : Option Nat := if g.source = .timer then some g.period else none

/-- A soft reset of the Temperature Unit (R56). -/
def TemperatureUnit.softReset (u : TemperatureUnit) : TemperatureUnit :=
  { u with cycle := .ready, divider := 0, fresh := false, timer := u.settings.startTimer }

/-! ### Requests -/

/-- R51. -/
def setBandsBody (f : Frame) (s : State) : Answer :=
  let k := u8At f.payload 0
  let bs := (List.range (k - 1)).map fun i => clampInt (-40) 85 (i16At f.payload (2 + 2 * i))
  if k = 0 ∨ 8 < k then refuse .badField s
  else if ¬ bs.IsChain (· < ·) then refuse .badField s
  else
    let band := match s.temp.lastValid with
      | some t => directBand bs t
      | none => 0
    answerOk (encU8 k ++ encU8 band.val ++ (List.range 7).flatMap fun i => encI16 (bs.getD i 0))
      { s with temp := { s.temp with boundaries := bs, band := band, reference := none } }

/-- The settings of a SET_SENSOR after clamping, in the layout of the request (R53, TABLE 10-5). -/
def encSensor (g : SensorSettings) : List Byte :=
  encU8 g.source.code ++ encU8 g.comparator.code ++ encU8 g.divider ++ encU8 g.gap ++ encU8 g.hysteresis ++
  encU8 g.failLimit ++ encU16 g.period

/-- R53. -/
def setSensorBody (f : Frame) (s : State) : Answer :=
  let p := f.payload
  match TriggerSource.ofCode (u8At p 0), ComparatorMode.ofCode (u8At p 1) with
  | some source, some comparator =>
    let g : SensorSettings :=
      { source := source, comparator := comparator, divider := clamp 1 255 (u8At p 2), gap := clamp 1 255 (u8At p 3),
        hysteresis := u8At p 4, failLimit := clamp 1 15 (u8At p 5), period := clamp 10 60000 (u16At p 6) }
    answerOk (encSensor g)
      { s with temp := { s.temp with
          settings := g, divider := 0, timer := g.startTimer, comparator := comparator,
          reference := if comparator = .change then none else s.temp.reference } }
  | _, _ => refuse .badField s

/-- R46. -/
def sampleNowBody (_ : Frame) (s : State) : Answer :=
  let u := s.temp.trigger
  answerOk (encFlag (s.temp.cycle = .ready) ++ encU8 u.drops.toNat) { s with temp := u }

/-- SET_BANDS (R51). -/
def execSetBands (s : State) : Outcome := request Kind.setBands (fixedLength 16 setBandsBody) s

/-- SET_SENSOR (R53). -/
def execSetSensor (s : State) : Outcome := request Kind.setSensor (fixedLength 8 setSensorBody) s

/-- SAMPLE_NOW (R46). -/
def execSampleNow (s : State) : Outcome := request Kind.sampleNow (fixedLength 0 sampleNowBody) s

/-! ### Events -/

/-- SENSOR_TIMER_EXPIRY (R44): the timer has run its period; the expiry is a trigger, and the timer starts again with the
period then in the settings. -/
def execSensorTimerExpiry (s : State) : Outcome :=
  if s.temp.timer = some 0 then
    .next { s with temp := ({ s.temp with timer := some s.temp.settings.period } : TemperatureUnit).trigger }
  else .next s

/-- SENSOR_CYCLE_END (R41): the word is decoded, the end is taken as a failed or a valid cycle, and the gap starts with the
gap length then in the settings. -/
def execSensorCycleEnd (word : SensorWord) (s : State) : Outcome :=
  if s.temp.cycle = .sampling then
    let s1 : State := { s with temp.cycle := .gap s.temp.settings.gap }
    match decodeSample word with
    | none => .next s1.failedSample
    | some t => .next (s1.validSample t)
  else .next s

/-- GAP_END (R41): the gap timer has run the gap length. -/
def execGapEnd (s : State) : Outcome :=
  if s.temp.cycle = .gap 0 then .next { s with temp.cycle := .ready } else .next s

end Sys2Proof.Machine
end

