-- ==== Sys2Proof/Machine/Frames.lean ====
section
/-! DEFINITION. Chapters 6 and 7: the drive of frames, the end of slots, the rail states with their timers and faults, the
events of both blocks, and their requests. -/

namespace Sys2Proof.Machine

/-! ### The drive of a frame -/

/-- The code a slot sends to a pixel of its drive set in its present frame (R101). -/
def State.slotCode (s : State) (sl : Slot) (x y : Nat) : DriveCode :=
  match s.wave.set? sl.effective sl.band with
  | some w => w.code (s.pixel.believed.level x y) (s.pixel.next.level x y) sl.index
  | none => .rest

/-- The drive code of the pixel at column x and row y, formed from the slot table as it stands: the code of the slot whose
drive set holds it, REST where none does (R101). -/
def State.formedCode (s : State) (x y : Nat) : DriveCode :=
  match s.frame.active.find? fun q => (s.pixel.driveSet q.2).has x y with
  | some q => s.slotCode q.2 x y
  | none => .rest

/-- At least one pixel receives a code other than REST (R102). -/
def State.drivesAny (s : State) : Bool :=
  s.frame.active.any fun q => (s.pixel.driveSet q.2).pixels.any fun p => s.slotCode q.2 p.1 p.2 ≠ .rest

/-! ### Rail states -/

/-- The supply is raised: RISING, with the ramp timer started (R116). -/
def State.enterRising (s : State) : State := { s with rail.state := .rising s.rail.rampTimeout }

/-- The supply is lowered: FALLING, with the discharge timer started, and no frame timing (R98, R119, R124). -/
def State.enterFalling (s : State) : State :=
  { s with rail.state := .falling s.rail.dischargeTime, frame.phase := .stopped, frame.driveActive := false }

/-- A PWR_GOOD that was active when RISING was entered waits to be found at the first millisecond after the entry: an
activation within RISING enters ON at once, so the level known there with ramp time left is that of the entry (R117). -/
def State.pwrGoodDue (s : State) : Bool :=
  match s.rail.state with
  | .rising (_ + 1) => s.rail.pwrGood
  | _ => false

/-- The entry to ON: the idle-frame count is 0, the RAIL_ON event goes to the Temperature Unit, and frame timing begins
(R117). -/
def State.enterOn (s : State) : State :=
  { s with rail.state := .on, frame.idle := 0, frame.phase := .between, temp := s.temp.railOn }

/-! ### The admission pass's end -/

/-- The idle-frame count after an admission pass (R100). -/
def State.nextIdle (s : State) : Nat := if s.quiet then min (s.frame.idle + 1) Config.maxIdle else 0

/-- What follows the admission pass of a frame start: the idle-frame count is formed; at an idle frame whose count has
reached the linger frames the rails fall and the frame is not driven; otherwise the frame's codes are formed and it is
driven (R99, R100, R102, R119). -/
def State.concludeStart (s : State) : State :=
  let s1 : State := { s with frame.idle := s.nextIdle }
  if s.quiet ∧ s.rail.lingerFrames ≤ s.nextIdle then s1.enterFalling
  else { s1 with frame.phase := .driven, frame.driveActive := s.drivesAny }

/-- The admission pass ends once no entry is left that it has not examined (R68). -/
def State.settlePass (s : State) : State :=
  match s.frame.phase with
  | .pass n => if s.sched.queue.length ≤ n then s.concludeStart else s
  | _ => s

/-! ### The end of slots -/

/-- Slot i ends with an outcome and the frames driven: the levels of its drive set are committed or set back (R16, R17), its
tiles are released (R90, R91), it becomes FREE and leaves the admission list (R97), and its record joins the completion
list (R106). -/
def State.finishSlot (s : State) (i : Fin 16) (sl : Slot) (outcome : UpdateOutcome) (frames : Nat) : State :=
  let r := s.pixel.driveSet sl
  let p := if outcome = .done
    then { s.pixel with believed := s.pixel.believed.paint r s.pixel.next.level }
    else { s.pixel with next := s.pixel.next.paint r s.pixel.believed.level }
  let c : Option Condition :=
    if outcome = .done then (if sl.effective = .clear then some .known else none) else some .unknown
  let s1 := ({ s with pixel := p } : State).releaseTiles sl.hull c
  let s2 : State := { s1 with
    frame := { s1.frame.setSlot i none with admissions := s1.frame.admissions.filter (· ≠ i) } }
  s2.joinRecord
    { tag := sl.tag, slot := some i, outcome := outcome, effective := sl.effective, escalated := sl.escalated,
      recovery := sl.recovery, band := sl.band, frames := frames, hull := sl.hull }

/-- Slot i at a frame end (R103, TABLE 6-2). -/
def State.advanceSlot (s : State) (i : Fin 16) : State :=
  match s.frame.slots[i] with
  | none => s
  | some sl =>
    if sl.length ≤ sl.index + 1 then s.finishSlot i sl .done sl.length
    else match sl.phase with
      | .driving => { s with frame := s.frame.setSlot i (some { sl with index := sl.index + 1 }) }
      | .stopping => s.finishSlot i sl .aborted (sl.index + 1)

/-- Slot i at a supply fault (R110). -/
def State.abortSlot (s : State) (i : Fin 16) : State :=
  match s.frame.slots[i] with
  | none => s
  | some sl => s.finishSlot i sl .aborted sl.index

/-- The slots of the admission list of `s` that are FREE in `t`, as they were, in admission-list order. -/
def freedSlots (s t : State) : List Slot :=
  s.frame.admissions.filterMap fun i => if t.frame.slots[i].isNone then s.frame.slots[i] else none

/-- The IDLE notice of an event that freed slots: raised once where no slot is left active and the queue is empty (R107). -/
def State.idleNotice (freed : List Slot) (s : State) : State :=
  if freed ≠ [] ∧ s.quiet then s.raise .idle else s

/-! ### Recovery entries -/

/-- The recovery entry of an aborted slot (R122). -/
def State.recoveryEntry (s : State) (sl : Slot) : PendingEntry :=
  { tag := sl.tag, hull := sl.hull, rect := s.pixel.extent sl.hull, mode := .clear, policy := .force, recovery := true }

/-- Recovery entries join the head of the queue in admission-list order, while the queue holds fewer than eight entries
(R63, R122). -/
def State.recover (aborted : List Slot) (s : State) : State :=
  if s.ghost.policy.autoRecovery then
    { s with sched.queue :=
        (aborted.map s.recoveryEntry).take (Config.queueCapacity - s.sched.queue.length) ++ s.sched.queue }
  else s

/-- The loss of PWR_GOOD in ON (R110, R121): FAULTED, every active slot aborted, frame timing and drive stopped, recovery
entries, the held commit's release, the RAIL notice, the IDLE test, and the waits on the tags reported. DESIGN CHOICE (log
entry 17): a loss that ends an admission pass forms no idle-frame count, and the count stays as it was. -/
def State.supplyLoss (s : State) : State :=
  let s1 : State := { s with rail.state := .faulted .loss }
  let s2 := s.frame.admissions.foldl State.abortSlot s1
  let aborted := freedSlots s s2
  let s3 : State := { s2 with frame.phase := .stopped, frame.driveActive := false }
  let s4 := ((((s3.recover aborted).installHeld aborted).raise .rail).idleNotice aborted)
  s4.endWaits (aborted.map Slot.tag)

/-! ### Events of the Frame Engine -/

/-- FRAME_START (R99): the frame counter and the divider count advance and the admission pass begins; where the queue is
empty it ends at once. -/
def execFrameStart (s : State) : Outcome :=
  if s.rail.state = .on ∧ s.frame.phase = .between then
    .next ({ s with
      frame.counter := s.frame.counter + 1#16, frame.phase := .pass 0, temp := s.temp.frameStart } : State).settlePass
  else .next s

/-- FRAME_END (R103): every active slot is advanced in admission-list order; a held commit may be installed, IDLE raised,
and waits ended. -/
def execFrameEnd (s : State) : Outcome :=
  if s.rail.state = .on ∧ s.frame.phase = .driven then
    let s1 : State := { s with frame.phase := .between, frame.driveActive := false }
    let s2 := s.frame.admissions.foldl State.advanceSlot s1
    let freed := freedSlots s s2
    .next (((s2.installHeld freed).idleNotice freed).endWaits (freed.map Slot.tag))
  else .next s

/-! ### Events of the Rail Controller -/

/-- PWR_GOOD_ACTIVE (R117): PWR_GOOD is found active. In RISING the rails enter ON, but where the line was active at the
entry to RISING: it is found at the first millisecond then and not before. In the other states the line's level has no
effect (R115). -/
def execPwrGoodActive (s : State) : Outcome :=
  let s1 : State := { s with rail.pwrGood := true }
  match s.rail.state with
  | .rising _ => .next (if s.pwrGoodDue then s else s1.enterOn)
  | _ => .next s1

/-- RAMP_TIMER_EXPIRY (R118): the ramp timer has run the ramp timeout. -/
def execRampTimerExpiry (s : State) : Outcome :=
  if s.rail.state = .rising 0 then .next (({ s with rail.state := .faulted .ramp } : State).raise .rail) else .next s

/-- PWR_GOOD_LOSS (R121): PWR_GOOD is found inactive. In ON it is a supply fault; in the other states the line's level has
no effect (R115). -/
def execPwrGoodLoss (s : State) : Outcome :=
  let s1 : State := { s with rail.pwrGood := false }
  if s.rail.state = .on then .next s1.supplyLoss else .next s1

/-- DISCHARGE_TIMER_EXPIRY (R120): the discharge timer has run the discharge time; OFF, or straight on to RISING where
entries wait. -/
def execDischargeTimerExpiry (s : State) : Outcome :=
  if s.rail.state = .falling 0 then
    let s1 : State := { s with rail.state := .off }
    .next (if s.sched.queue.isEmpty then s1 else s1.enterRising)
  else .next s

/-! ### Requests -/

/-- R112. -/
def querySlotsBody (_ : Frame) (s : State) : Answer :=
  let order := s.frame.admissions.flatMap fun i => encU8 i.val
  answerOk (encU16 s.frame.counter.toNat ++ encU8 s.frame.activeCount ++ encU8 0 ++
    (order ++ List.replicate (16 - order.length) 0xFF#8) ++ s.frame.slots.toList.flatMap encSlot) s

/-- R125. -/
def setRailsBody (f : Frame) (s : State) : Answer :=
  let ramp := clamp 1 255 (u16At f.payload 0)
  let discharge := clamp 1 255 (u16At f.payload 2)
  let linger := clamp 0 1000 (u16At f.payload 4)
  answerOk (encU16 ramp ++ encU16 discharge ++ encU16 linger)
    { s with rail := { s.rail with rampTimeout := ramp, dischargeTime := discharge, lingerFrames := linger } }

/-- R124. -/
def railResumeBody (_ : Frame) (s : State) : Answer :=
  match s.rail.state with
  | .faulted _ =>
    let t := s.enterFalling
    answerOk (encU8 t.rail.state.code ++ encU8 s.rail.state.causeCode) t
  | _ => answerOk (encU8 s.rail.state.code ++ encU8 0) s

/-- QUERY_SLOTS (R112). -/
def execQuerySlots (s : State) : Outcome := request Kind.querySlots (fixedLength 0 querySlotsBody) s

/-- SET_RAILS (R125). -/
def execSetRails (s : State) : Outcome := request Kind.setRails (fixedLength 6 setRailsBody) s

/-- RAIL_RESUME (R124). -/
def execRailResume (s : State) : Outcome := request Kind.railResume (fixedLength 0 railResumeBody) s

end Sys2Proof.Machine
end

