-- ==== Sys2Proof/Machine/Schedule.lean ====
section
/-! DEFINITION. Chapter 4: the pending queue, its departures and notices, the examination of an entry in the admission pass,
and the requests of the Update Scheduler; STOP_ALL, which empties the queue and stops the slots. -/

namespace Sys2Proof.Machine

/-! ### Departures from the queue -/

/-- The queue left by an event that removes entries from it, with the notices of the queue: QUEUE_SPACE where it falls from
eight entries (R66), IDLE where entries left, none is left and no slot is active (R67). -/
def State.leaveQueue (q : List PendingEntry) (s : State) : State :=
  let old := s.sched.queue
  let s1 : State := { s with sched.queue := q }
  let s2 := if Config.queueCapacity ≤ old.length ∧ q.length < Config.queueCapacity then s1.raise .queueSpace else s1
  if q.length < old.length ∧ s2.quiet then s2.raise .idle else s2

/-- The place of the admission pass once the first `n` entries of the queue are `left` of them (R68). -/
def FramePhase.passAt (p : FramePhase) (left : Nat) : FramePhase :=
  match p with
  | .pass _ => .pass left
  | q => q

/-! ### The examination of an entry -/

/-- Every tile of the hull has owner NONE and a rest of at least the settle time: conditions (b) and (c) of R69. -/
def State.hullFree (s : State) (h : TileRect) : Bool :=
  h.tiles.all fun t => (s.tile t.1 t.2).owner.isNone && s.ghost.policy.settle ≤ (s.tile t.1 t.2).rest

/-- The entry at position n of the queue is admissible: conditions (a) to (d) and (f) of R69. -/
def State.admissible (s : State) (n : Nat) (e : PendingEntry) : Bool :=
  !(s.sched.queue.take n).any (fun o => o.hull.overlaps e.hull) &&
  s.hullFree e.hull &&
  s.frame.freeSlot.isSome &&
  (!s.ghost.policy.freshSample || s.temp.ready)

/-- A commit is held for the mode and band: condition (e) of R70. -/
def WaveformStore.holds (w : WaveformStore) (m : Mode) (b : Fin 8) : Bool :=
  match w.held with
  | some h => h.mode = m && h.band = b
  | none => false

/-- The entry at position n waits: it stays in its place and the pass goes on behind it (R69). -/
def State.holdEntry (s : State) (n : Nat) : State := { s with frame.phase := .pass (n + 1) }

/-- The entry at position n is refused at admission (R70). -/
def State.refuseEntry (s : State) (n : Nat) (e : PendingEntry) (o : UpdateOutcome) (eff : Mode) (esc : Bool) : State :=
  let s1 := s.joinRecord
    { tag := e.tag, slot := none, outcome := o, effective := eff, escalated := esc, recovery := e.recovery,
      band := s.temp.band, frames := 0, hull := e.hull }
  (s1.leaveQueue (s.sched.queue.eraseIdx n)).endWaits [e.tag]

/-- The entry at position n is admitted to slot i (R71). -/
def State.enterEntry (s : State) (n : Nat) (i : Fin 16) (e : PendingEntry) (eff : Mode) (esc : Bool) : State :=
  ((s.fillSlot i e eff esc s.temp.band).leaveQueue (s.sched.queue.eraseIdx n)).endWaits [e.tag]

/-- The examination of the entry at position n: it waits, is refused, is held back, or is admitted (R69 to R71). -/
def State.examine (s : State) (n : Nat) (e : PendingEntry) : State :=
  match s.admissible n e, s.frame.freeSlot with
  | true, some i =>
    match s.plan e s.temp.band with
    | .refused o eff esc => s.refuseEntry n e o eff esc
    | .drive eff esc => if s.wave.holds eff s.temp.band then s.holdEntry n else s.enterEntry n i e eff esc
  | _, _ => s.holdEntry n

/-- ENTRY_EXAMINATION (R68 to R71): the admission pass examines the next entry; the examination of the last one ends the
pass. -/
def execEntryExamination (s : State) : Outcome :=
  if s.rail.state = .on then
    match s.frame.phase with
    | .pass n =>
      match s.sched.queue[n]? with
      | some e => .next (s.examine n e).settlePass
      | none => .next s.settlePass
    | _ => .next s
  else .next s

/-! ### Requests -/

/-- R57 to R61; the acceptance in rail state OFF begins the rise of the supply (R116). -/
def startUpdateBody (f : Frame) (s : State) : Answer :=
  let p := f.payload
  if !s.pixel.setUp then refuse .notSetUp s
  else match Mode.ofCode (u8At p 8), Policy.ofCode (u8At p 9) with
    | some m, some policy =>
      match s.pixel.clip (rectAt p 0) with
      | none => refuse .emptyRect s
      | some r =>
        if (s.wave.set? m s.temp.band).isNone then refuse .noWaveform s
        else if Config.queueCapacity ≤ s.sched.queue.length then refuse .queueFull s
        else
          let h := hullOf r
          let e : PendingEntry := { tag := f.tag, rect := r, hull := h, mode := m, policy := policy, recovery := false }
          let s1 : State := { s with sched.queue := s.sched.queue ++ [e] }
          answer .queued (encU8 s.sched.queue.length ++ encU8 0 ++ encRect r ++ encTileRect h)
            (if s.rail.state = .off then s1.enterRising else s1)
    | _, _ => refuse .badField s

/-- The pass after entries that satisfy `gone` have left the queue `q`: the entries it has examined are those of them that
stay (R68). -/
def FramePhase.without (p : FramePhase) (q : List PendingEntry) (gone : PendingEntry → Bool) : FramePhase :=
  match p with
  | .pass n => .pass ((q.take n).countP fun e => !gone e)
  | other => other

/-- R64. -/
def cancelUpdateBody (f : Frame) (s : State) : Answer :=
  let t := tagAt f.payload 0
  let gone : PendingEntry → Bool := fun e => e.tag = t
  let q := s.sched.queue
  let n := q.countP gone
  let s1 : State := { s with frame.phase := s.frame.phase.without q gone }
  let s2 := s1.leaveQueue (q.filter fun e => !gone e)
  { answerOk (encU8 n ++ encU8 0) s2.settlePass with reported := List.replicate n t }

/-- R65. -/
def queryQueueBody (_ : Frame) (s : State) : Answer :=
  let q := s.sched.queue
  answerOk (encU8 q.length ++ encU8 0 ++ (q.zipIdx.flatMap fun x => encEntry x.2 x.1)) s

/-- The slot after a STOP_ALL: STOPPING, its other fields unchanged (R108). -/
def Slot.stop (sl : Slot) : Slot := { sl with phase := .stopping }

/-- R72, R108. -/
def stopAllBody (_ : Frame) (s : State) : Answer :=
  let stopped := s.frame.active.countP fun q => q.2.phase = .driving
  let q := s.sched.queue
  let s1 : State := { s with
    frame := { s.frame with slots := s.frame.slots.map (Option.map Slot.stop), phase := s.frame.phase.passAt 0 } }
  let s2 := s1.leaveQueue []
  { answerOk (encU8 stopped ++ encU8 q.length) s2.settlePass with reported := q.map PendingEntry.tag }

/-- START_UPDATE (R57 to R61). -/
def execStartUpdate (s : State) : Outcome := request Kind.startUpdate (fixedLength 10 startUpdateBody) s

/-- CANCEL_UPDATE (R64). -/
def execCancelUpdate (s : State) : Outcome := request Kind.cancelUpdate (fixedLength 2 cancelUpdateBody) s

/-- QUERY_QUEUE (R65). -/
def execQueryQueue (s : State) : Outcome := request Kind.queryQueue (fixedLength 0 queryQueueBody) s

/-- STOP_ALL (R72, R108). -/
def execStopAll (s : State) : Outcome := request Kind.stopAll (fixedLength 0 stopAllBody) s

end Sys2Proof.Machine
end

