-- ==== Sys2Proof/Machine/Resets.lean ====
section
/-! DEFINITION. The resets of the part and the Timebase: the steps that reach every block. -/

namespace Sys2Proof.Machine

/-! ### The soft reset -/

/-- One active slot freed by a soft reset: the next levels of its drive set are set back, its tiles are released as UNKNOWN,
and it becomes FREE, without a record and without a report (R18, R78, R114). -/
def State.freeSlotSilently (s : State) (q : Fin 16 × Slot) : State :=
  let s1 : State := { s with
    pixel.next := s.pixel.next.paint (s.pixel.driveSet q.2) s.pixel.believed.level,
    frame := s.frame.setSlot q.1 none }
  s1.releaseTiles q.2.hull (some .unknown)

/-- The framing state after a soft reset: a write transaction in progress is discarded, and a read in progress sends only
idle bytes (R150). -/
def Framing.softReset : Framing → Framing
  | .header _ | .payload _ _ _ _ | .skip _ => .discard
  | .read _ _ => .read 0 true
  | fr => fr

/-- The rails after a soft reset: OFF stays OFF, every other state falls with a full discharge (R126). -/
def RailController.softReset (r : RailController) : RailController :=
  { r with state := if r.state = .off then .off else .falling r.dischargeTime }

/-- The soft reset of every block, before its reply is placed (R18, R38, R56, R72, R78, R114, R126, R137, R150). -/
def State.softReset (s : State) : State :=
  let s1 := s.frame.active.foldl State.freeSlotSilently s
  let s2 : State := { s1 with
    wave := { s1.wave with staging := [], held := none },
    temp := s1.temp.softReset,
    sched.queue := [],
    frame := { s1.frame with admissions := [], idle := 0, phase := .stopped, driveActive := false },
    rail := s1.rail.softReset,
    notice := { s1.notice with kinds := 0#9, records := [], waits := [], ended := [] },
    link := ({ s1.link with framing := s1.link.framing.softReset, frames := [], replies := [] } : MessageLink).drawHold }
  s2.drawAttn false

/-- R150: the soft reset; its reply is then placed in the empty reply queue. -/
def resetPartBody (_ : Frame) (s : State) : Answer := answerOk [] s.softReset

/-- RESET_PART (R150). -/
def execResetPart (s : State) : Outcome := request Kind.resetPart (fixedLength 0 resetPartBody) s

/-! ### The power-on reset -/

/-- POWER_ON_RESET (R151 and the reset rule of each block): every block returns to its power-on state. The level of the
PWR_GOOD input is the supply's, and no reset of the part changes it (log entry 1). -/
def execPowerOnReset (s : State) : Outcome :=
  .next { State.reset with rail := { RailController.reset with pwrGood := s.rail.pwrGood }, pending := s.pending }

/-! ### The Timebase -/

/-- A tile record at a millisecond: the rest of an unowned tile advances by 1 and stays at 65535 (R75). -/
def TileRecord.tick (r : TileRecord) : TileRecord :=
  if r.owner.isNone then { r with rest := min (r.rest + 1) Config.maxRest } else r

/-- The ramp timer or the discharge timer at a millisecond (R116, R120). -/
def RailState.tick : RailState → RailState
  | .rising n => .rising (n - 1)
  | .falling n => .falling (n - 1)
  | r => r

/-- The time left of a WAITING entry at a millisecond (R135). -/
def WaitEntry.tick (w : WaitEntry) : WaitEntry := { w with timeLeft := w.timeLeft - 1 }

/-- Every timer and rest that the Timebase steps, stepped by one millisecond. -/
def State.stepTimers (s : State) : State :=
  { s with
    ghost.tiles := s.ghost.tiles.map TileRecord.tick,
    temp := s.temp.tick,
    rail.state := s.rail.state.tick,
    notice.waits := s.notice.waits.map WaitEntry.tick }

/-- TIMEBASE_TICK (R75): one millisecond. A PWR_GOOD that was active at the entry to RISING is found in it, and the rails
enter ON (R117); where the ramp timer runs out at the same millisecond, the finding and the expiry are taken in one order or
the other, as commands of their own (R118). DESIGN CHOICE (log entry 16): where a gap runs out at the millisecond that enters
ON under source RAIL_ON, R42 lets the trigger and the end of the gap be taken in either order, and the tick takes the trigger
first, so it is dropped. It expires no timer by itself: each expiry is a command of its own. -/
def execTimebaseTick (s : State) : Outcome :=
  let t := s.stepTimers
  .next (if t.pwrGoodDue then t.enterOn else t)

end Sys2Proof.Machine
end

