-- ==== Sys2Proof/Machine/Dispatch.lean ====
section
/-! DEFINITION. The meaning of every command: one arm for each row of the table. -/

namespace Sys2Proof.Machine

def exec (i : Instr) (s : State) : Host.Outcome State Fault Refusal :=
  match i with
  | .powerOnReset => Sys2Proof.Machine.execPowerOnReset s
  | .transactionPrefix b => Sys2Proof.Machine.execTransactionPrefix b s
  | .badSync b => Sys2Proof.Machine.execBadSync b s
  | .headerTaken b => Sys2Proof.Machine.execHeaderTaken b s
  | .frameComplete b => Sys2Proof.Machine.execFrameComplete b s
  | .skipEnd b => Sys2Proof.Machine.execSkipEnd b s
  | .selectRelease => Sys2Proof.Machine.execSelectRelease s
  | .replySent => Sys2Proof.Machine.execReplySent s
  | .waitReplyPlaced => Sys2Proof.Machine.execWaitReplyPlaced s
  | .unknownKind => Sys2Proof.Machine.execUnknownKind s
  | .status => Sys2Proof.Machine.execStatus s
  | .resetPart => Sys2Proof.Machine.execResetPart s
  | .panelSetup => Sys2Proof.Machine.execPanelSetup s
  | .writeImage => Sys2Proof.Machine.execWriteImage s
  | .fillImage => Sys2Proof.Machine.execFillImage s
  | .readImage => Sys2Proof.Machine.execReadImage s
  | .readPanel => Sys2Proof.Machine.execReadPanel s
  | .loadWaveform => Sys2Proof.Machine.execLoadWaveform s
  | .commitWaveform => Sys2Proof.Machine.execCommitWaveform s
  | .eraseWaveform => Sys2Proof.Machine.execEraseWaveform s
  | .listWaveforms => Sys2Proof.Machine.execListWaveforms s
  | .setBands => Sys2Proof.Machine.execSetBands s
  | .setSensor => Sys2Proof.Machine.execSetSensor s
  | .sampleNow => Sys2Proof.Machine.execSampleNow s
  | .sensorTimerExpiry => Sys2Proof.Machine.execSensorTimerExpiry s
  | .sensorCycleEnd w => Sys2Proof.Machine.execSensorCycleEnd w s
  | .gapEnd => Sys2Proof.Machine.execGapEnd s
  | .timebaseTick => Sys2Proof.Machine.execTimebaseTick s
  | .startUpdate => Sys2Proof.Machine.execStartUpdate s
  | .cancelUpdate => Sys2Proof.Machine.execCancelUpdate s
  | .queryQueue => Sys2Proof.Machine.execQueryQueue s
  | .queryTiles => Sys2Proof.Machine.execQueryTiles s
  | .markTiles => Sys2Proof.Machine.execMarkTiles s
  | .setPolicy => Sys2Proof.Machine.execSetPolicy s
  | .stopAll => Sys2Proof.Machine.execStopAll s
  | .querySlots => Sys2Proof.Machine.execQuerySlots s
  | .setRails => Sys2Proof.Machine.execSetRails s
  | .railResume => Sys2Proof.Machine.execRailResume s
  | .setNotices => Sys2Proof.Machine.execSetNotices s
  | .fetchNotices => Sys2Proof.Machine.execFetchNotices s
  | .waitUpdate => Sys2Proof.Machine.execWaitUpdate s
  | .waitTimeCheckExpiry => Sys2Proof.Machine.execWaitTimeCheckExpiry s
  | .attnPulseEnd => Sys2Proof.Machine.execAttnPulseEnd s
  | .pwrGoodActive => Sys2Proof.Machine.execPwrGoodActive s
  | .rampTimerExpiry => Sys2Proof.Machine.execRampTimerExpiry s
  | .pwrGoodLoss => Sys2Proof.Machine.execPwrGoodLoss s
  | .dischargeTimerExpiry => Sys2Proof.Machine.execDischargeTimerExpiry s
  | .frameStart => Sys2Proof.Machine.execFrameStart s
  | .entryExamination => Sys2Proof.Machine.execEntryExamination s
  | .frameEnd => Sys2Proof.Machine.execFrameEnd s
  | .frameByteReceived b => Sys2Proof.Machine.execFrameByteReceived b s

end Sys2Proof.Machine
end

