-- ==== Sys2Proof/Machine/Outputs.lean ====
section
/-! DEFINITION. What the part shows at its lines and ports: each a function of the state. -/

namespace Sys2Proof.Machine

/-- RAIL_EN is active: in RISING and ON (R115). -/
def State.railEn (s : State) : Bool :=
  match s.rail.state with
  | .rising _ => true
  | .on => true
  | _ => false

/-- The ATTN line is at the high level: active under active-high, inactive under active-low (R129). -/
def State.attnHigh (s : State) : Bool := s.link.attn == decide (s.notice.polarity = .activeHigh)

/-- The HOLD line is at the high level: asserted (R144, TABLE 9-6). -/
def State.holdHigh (s : State) : Bool := s.link.hold

/-- The DRIVE_ACTIVE line is active (R102). -/
def State.driveActive (s : State) : Bool := s.frame.driveActive

/-- The sensor's select line is active: while a cycle is in SAMPLING (R41). -/
def State.sensorSelected (s : State) : Bool := s.temp.cycle = .sampling

/-- The code the panel's pixel at column x and row y receives now: that of the frame being driven, and no drive while none
is (R101, R102). -/
def State.driveCode (s : State) (x y : Nat) : DriveCode := if s.frame.phase = .driven then s.formedCode x y else .rest

/-- The byte the part sends for the next byte clocked: of the reply at the head in a read whose idle bytes have not begun,
0x00 in every other case (R138, R148). -/
def State.txByte (s : State) : Byte :=
  match s.link.framing, s.link.replies with
  | .read sent false, r :: _ => r.bytes.getD sent 0#8
  | _, _ => 0#8

/-- The pending set as a notice mask holds DONE exactly while the completion list holds a record (R127). -/
def State.doneAgrees (s : State) : Bool := KindSet.mem .done s.notice.kinds == !s.notice.records.isEmpty

end Sys2Proof.Machine
end

