-- ==== Sys2Proof/Safety.lean ====
section
/-! DEFINITION. The terms in which claims are stated: the request a command takes and its fixed length, the steps of a taking,
runs of commands, and the invariants of the part, block by block. -/

namespace Sys2Proof

/-- The kind of the request that a command takes, none for a command that takes no request of TABLE 10-2. -/
def Instr.requestKind : Instr → Option Byte
  | .status => some 0x01#8
  | .resetPart => some 0x02#8
  | .panelSetup => some 0x10#8
  | .writeImage => some 0x11#8
  | .fillImage => some 0x12#8
  | .readImage => some 0x13#8
  | .readPanel => some 0x14#8
  | .loadWaveform => some 0x20#8
  | .commitWaveform => some 0x21#8
  | .eraseWaveform => some 0x22#8
  | .listWaveforms => some 0x23#8
  | .setBands => some 0x30#8
  | .setSensor => some 0x31#8
  | .sampleNow => some 0x32#8
  | .startUpdate => some 0x40#8
  | .cancelUpdate => some 0x41#8
  | .queryQueue => some 0x42#8
  | .queryTiles => some 0x50#8
  | .markTiles => some 0x51#8
  | .setPolicy => some 0x52#8
  | .stopAll => some 0x60#8
  | .querySlots => some 0x61#8
  | .setRails => some 0x70#8
  | .railResume => some 0x71#8
  | .setNotices => some 0x80#8
  | .fetchNotices => some 0x81#8
  | .waitUpdate => some 0x82#8
  | _ => none

/-- The fixed payload length of the request that a command takes (TABLE 10-4); none for the two requests that carry data
behind their fixed fields and for a command that takes no request. -/
def Instr.fixedLength : Instr → Option Nat
  | .status | .resetPart | .stopAll | .querySlots | .railResume | .queryQueue | .listWaveforms | .sampleNow => some 0
  | .panelSetup | .commitWaveform | .markTiles | .setRails | .setNotices => some 6
  | .fillImage | .startUpdate => some 10
  | .readImage | .readPanel | .setSensor => some 8
  | .eraseWaveform | .cancelUpdate | .fetchNotices => some 2
  | .setBands => some 16
  | .queryTiles | .waitUpdate => some 4
  | .setPolicy => some 14
  | _ => none

/-- The requests that change no state but the receive buffer and the reply queue (R13, R37, R65, R92, R112, R149). -/
def Instr.isQuery : Instr → Bool
  | .status | .readImage | .readPanel | .listWaveforms | .queryQueue | .queryTiles | .querySlots => true
  | _ => false

namespace Machine

/-! ### The steps of a taking -/

/-- The oldest complete frame is `f`, and requests can be taken: the reply queue has a place that no ENDED wait claims. -/
def State.offers (s : State) (f : Frame) : Prop := s.link.frames.head? = some f ∧ s.canTake = true

/-- The state once the oldest frame has left the receive buffer, with its reservation released and HOLD following. -/
def State.released (s : State) : State :=
  { s with link := ({ s.link with frames := s.link.frames.tail } : MessageLink).drawHold }

/-- The state once the reply to frame `f` has joined the tail of the reply queue. -/
def State.replied (s : State) (f : Frame) (st : Status) (payload : List Byte) : State :=
  s.pushReply { kind := f.kind, tag := f.tag, status := st, payload := payload }

/-! ### Runs -/

/-- The state after a run of commands, none where one of them does not answer a next state. -/
def runCommands : List Instr → State → Option State
  | [], s => some s
  | c :: cs, s =>
    match exec c s with
    | .next t => runCommands cs t
    | _ => none

/-- The commands of the bytes of a request frame with a payload of one byte or more, in order of arrival: the header
of TABLE 10-1, least significant bytes first, and the payload. -/
def frameCommands (kind : Byte) (tag : Tag) (payload : List Byte) : List Instr :=
  [.frameByteReceived 0xC3#8, .frameByteReceived kind, .frameByteReceived (tag.extractLsb' 0 8),
   .frameByteReceived (tag.extractLsb' 8 8), .frameByteReceived (BitVec.ofNat 8 payload.length),
   .headerTaken (BitVec.ofNat 8 (payload.length / 256))] ++
  (payload.dropLast.map .frameByteReceived ++ payload.getLast?.toList.map .frameComplete)

/-- The bytes the part sends while `n` further bytes are clocked in a read, each before the byte is clocked, and the state
reached. -/
def readBytes : Nat → State → List Byte × Option State
  | 0, s => ([], some s)
  | n + 1, s =>
    match exec (.frameByteReceived 0#8) s with
    | .next t => let r := readBytes n t
                 (s.txByte :: r.1, r.2)
    | _ => ([s.txByte], none)

/-! ### Invariants of the Message Link -/

/-- What a framing state holds is within the bounds of TABLE 9-1. -/
def Framing.sound : Framing → Prop
  | .header got => got.length ≤ 5
  | .payload _ _ n got => got.length < n ∧ n ≤ Config.maxPayload
  | .skip n => 1 ≤ n ∧ n ≤ 65535
  | _ => True

/-- The frames held fit the receive buffer, HOLD agrees with the free count, and the reply queue is within its capacity
(R143, R144, R147). -/
def MessageLink.sound (l : MessageLink) : Prop :=
  l.framing.sound ∧ l.reserved ≤ Config.receiveBytes ∧ l.replies.length ≤ Config.replyCapacity ∧
  (l.rxFree < Config.holdBelow → l.hold = true) ∧ (Config.releaseFrom ≤ l.rxFree → l.hold = false)

/-! ### Invariants of the memories -/

/-- The four memories of the part are in canonical form. -/
def State.memoryCanonical (s : State) : Prop :=
  Memory.wf white s.pixel.image = true ∧ Memory.wf white s.pixel.believed = true ∧ Memory.wf white s.pixel.next = true ∧
  Memory.wf 0#8 s.wave.staging = true

/-! ### Invariants of the counts -/

/-- The queues and lists are within their capacities (R62, R131, R134, R147). -/
def State.listsBounded (s : State) : Prop :=
  s.sched.queue.length ≤ Config.queueCapacity ∧ s.notice.records.length ≤ Config.recordCapacity ∧
  s.notice.waits.length + s.notice.ended.length ≤ Config.waitCapacity ∧ s.link.replies.length ≤ Config.replyCapacity

/-- Every residue and charge is within its range (R77). -/
def State.accountsBounded (s : State) : Prop :=
  s.ghost.policy.weightClear ≤ 255 ∧
  ∀ r ∈ s.ghost.tiles, r.residue ≤ Config.maxResidue ∧ -32768 ≤ r.charge ∧ r.charge ≤ 32767

/-! ### Invariants of the slots, the tiles and the rails -/

/-- Slot i is active. -/
def FrameEngine.isActive (f : FrameEngine) (i : Fin 16) : Prop := f.slots[i].isSome = true

/-- The admission list holds each active slot once and no other (R97). -/
def FrameEngine.listSound (f : FrameEngine) : Prop := f.admissions.Nodup ∧ ∀ i, i ∈ f.admissions ↔ f.isActive i

/-- A tile of the grid is owned by a slot exactly when the slot is active and the tile lies in its hull (R74). -/
def State.ownersSound (s : State) : Prop :=
  s.ghost.tiles.length = s.pixel.tileCols * s.pixel.tileRows ∧
  ∀ i j k, i < s.pixel.tileCols → j < s.pixel.tileRows →
    ((s.tile i j).owner = some k ↔ ∃ sl, s.frame.slots[k] = some sl ∧ sl.hull.has i j = true)

/-- The rectangle lies inside the panel and holds at least one pixel, and the hull is the one of its pixels (R58, R59). -/
def PixelStore.kept (p : PixelStore) (r : Rect) (h : TileRect) : Prop :=
  r.x + r.w ≤ p.width ∧ r.y + r.h ≤ p.height ∧ 0 < r.w ∧ 0 < r.h ∧ h = hullOf r

/-- The tile counts follow from the width and the height, which are within their ranges, and the rectangles and hulls of the
pending entries and of the active slots stay true to them (R1, R2, R58, R59). -/
def State.rectsSound (s : State) : Prop :=
  s.pixel.width ≤ Config.planeStride ∧
  s.pixel.tileCols = (s.pixel.width + 31) / 32 ∧ s.pixel.tileRows = (s.pixel.height + 31) / 32 ∧
  (∀ e ∈ s.sched.queue, s.pixel.kept e.rect e.hull) ∧
  ∀ (i : Fin 16) sl, s.frame.slots[i] = some sl → s.pixel.kept sl.rect sl.hull

/-- Slots are active, and frame timing runs, in rail state ON alone (R96, R98, R102). -/
def State.railsSound (s : State) : Prop :=
  (s.rail.state ≠ .on → ∀ i : Fin 16, ¬ s.frame.isActive i) ∧ (s.rail.state = .on ↔ s.frame.phase ≠ .stopped) ∧
  (s.frame.driveActive = true → s.frame.phase = .driven)

/-- The ownership of tiles, the admission list and the rails agree with the slot table. -/
def State.ledgerSound (s : State) : Prop :=
  s.frame.listSound ∧ s.ownersSound ∧ s.rectsSound ∧ s.railsSound

/-! ### Invariants of the waveform sets -/

/-- A waveform set holds what R22 and R31 give it. -/
def WaveformSet.sound (w : WaveformSet) : Prop :=
  1 ≤ w.length ∧ w.length ≤ 120 ∧ 1 ≤ w.sequences.length ∧ w.sequences.length ≤ 64 ∧ w.table.length = 256 ∧
  (∀ e ∈ w.table, e < w.sequences.length) ∧ (∀ q ∈ w.sequences, q.length = w.length) ∧
  w.charges = w.sequences.map sequenceCharge

/-- The code of frame i of sequence k of the image at the start of the staging buffer; none for the two bits that are no
drive code (R21, R25). -/
def WaveformStore.stagedCode (w : WaveformStore) (k i : Nat) : Option DriveCode :=
  let L := (w.stagingByte 2).toNat
  match (w.stagingByte (260 + k * ((L + 3) / 4) + i / 4)).toNat / 4 ^ (3 - i % 4) % 4 with
  | 0 => some .rest
  | 1 => some .darken
  | 2 => some .lighten
  | _ => none

/-- The frame length, the transition table and the drive codes of the set are those of the image at the start of the staging
buffer (R25, R33, R35). -/
def WaveformSet.isStaged (v : WaveformSet) (w : WaveformStore) : Prop :=
  v.length = (w.stagingByte 2).toNat ∧ v.sequences.length = (w.stagingByte 3).toNat ∧
  (∀ f t : Level, v.sequenceOf f t = (w.stagingByte (4 + 16 * f.toNat + t.toNat)).toNat) ∧
  ∀ k i, k < v.sequences.length → i < v.length → ((v.sequences[k]?).bind fun q => q[i]?) = w.stagedCode k i

/-- The image in the staging buffer passes every check of a commit for the mode, band and length, and the charges are its
own. -/
def WaveformStore.heldSound (w : WaveformStore) (h : HeldCommit) : Prop :=
  w.imageFault h.mode h.band h.length = none ∧ crc16 (w.stagingBytes h.length) = h.crc ∧
  h.charges = (w.imageSequences (w.stagingByte 2).toNat (w.stagingByte 3).toNat).map sequenceCharge

/-- Every installed set is sound, the image of a held commit is still as it was checked, and every active slot drives a frame
of its length (R22, R34, R103). -/
def State.setsSound (s : State) : Prop :=
  (∀ m b w, s.wave.set? m b = some w → w.sound) ∧ (∀ h, s.wave.held = some h → s.wave.heldSound h) ∧
  ∀ (i : Fin 16) sl, s.frame.slots[i] = some sl → sl.index < sl.length ∧ sl.length ≤ 120

/-! ### Invariants of the panel plane -/

/-- A pixel that lies in the drive set of no active slot has its next level equal to its believed level (R7). -/
def State.levelsAgree (s : State) : Prop :=
  ∀ x y, x < Config.planeStride →
    (∀ (i : Fin 16) sl, s.frame.slots[i] = some sl → (s.pixel.driveSet sl).has x y = false) →
    s.pixel.next.level x y = s.pixel.believed.level x y

/-- The conditions (a) to (d) and (f) of R69 for the entry at position n of the queue. -/
def State.mayGo (s : State) (n : Nat) (e : PendingEntry) : Prop :=
  (∀ o ∈ s.sched.queue.take n, ¬ ∃ i j, o.hull.has i j = true ∧ e.hull.has i j = true) ∧
  (∀ i j, e.hull.has i j = true → (s.tile i j).owner = none ∧ s.ghost.policy.settle ≤ (s.tile i j).rest) ∧
  (∃ k : Fin 16, s.frame.slots[k] = none) ∧
  (s.ghost.policy.freshSample = true →
    s.temp.fresh = true ∨ s.temp.status = .stale ∨ s.temp.settings.source = .none)

/-- The panel plane is sound. -/
def State.planeSound (s : State) : Prop := s.memoryCanonical ∧ s.rectsSound ∧ s.levelsAgree

/-! ### Invariants of the Temperature Unit -/

/-- A temperature that a valid sample can give (R40). -/
def isSample (t : Int) : Prop := -2048 ≤ t ∧ t ≤ 2047

/-- The band table is one that R49 allows, the current band is one of its bands, the failure count and the divider count are
within their ranges, and the last valid sample and the latches hold samples (R40, R43, R47, R49, R50). -/
def TemperatureUnit.sound (u : TemperatureUnit) : Prop :=
  u.boundaries.length ≤ 7 ∧ u.boundaries.IsChain (· < ·) ∧ (∀ b ∈ u.boundaries, -40 ≤ b ∧ b ≤ 85) ∧
  u.band.val ≤ u.boundaries.length ∧ u.failures ≤ Config.maxFailures ∧
  1 ≤ u.settings.divider ∧ u.settings.divider ≤ 255 ∧ u.divider < u.settings.divider ∧
  (∀ t, u.lastValid = some t → isSample t) ∧ (∀ t, u.bandLatch = some t → isSample t) ∧
  ∀ t, u.noticeLatch = some t → isSample t

/-! ### Invariants of the notices -/

/-- DONE is pending exactly while the completion list holds a record (R127), and in mode LEVEL the ATTN line is active exactly
when a reply waits or an enabled kind is pending (R129). -/
def State.noticesSound (s : State) : Prop :=
  (KindSet.mem .done s.notice.kinds = !s.notice.records.isEmpty) ∧
  (s.notice.mode = .level → s.link.attn = s.attnCondition)

end Machine
end Sys2Proof
end

