-- ==== Sys2Proof/Certificates/Slice0/Obligations.lean ====
section
/-! DEFINITION. The statements about the model, for the provers. -/

open Sys2Proof Sys2Proof.Machine

/-! ### The machine as a whole -/

/-- A step carries out the command at the front of the queue with the queue's rest. That an empty queue idles is the model's
choice (log entry 3). -/
def Obligations.StepTakesFrontCommand : Prop :=
  (∀ (c : Instr) (cs : List Instr) (s : State), s.pending = c :: cs → step s = exec c { s with pending := cs }) ∧
  ∀ s : State, s.pending = [] → step s = .next s

/-- No command stops the part, and none touches the queue of commands that wait. That a command whose event does not occur in a
state leaves that state as it is, is the model's choice (log entry 2), and so is the queue, which is the model's own field (log
entry 3). -/
def Obligations.EveryCommandAnswersNext : Prop :=
  ∀ (c : Instr) (s : State), ∃ t, exec c s = .next t ∧ t.pending = s.pending

/-- Every invariant stated below holds after a power-on reset. -/
def Obligations.ResetHoldsInvariants : Prop :=
  State.reset.link.sound ∧ State.reset.memoryCanonical ∧ State.reset.listsBounded ∧ State.reset.accountsBounded ∧
  State.reset.ledgerSound ∧ State.reset.setsSound ∧ State.reset.planeSound ∧ State.reset.temp.sound ∧
  State.reset.noticesSound

/-- POWER_ON_RESET returns every block to its power-on state. That the level of the PWR_GOOD input stays as it was last found
is the model's choice (log entry 1). -/
def Obligations.PowerOnReset : Prop :=
  ∀ s : State, ∃ t, exec .powerOnReset s = .next t ∧
    t.pixel = { setUp := false, width := 0, height := 0, tileCols := 0, tileRows := 0, image := [], believed := [],
                next := [] } ∧
    (∀ m b, t.wave.set? m b = none) ∧ (∀ a, t.wave.stagingByte a = 0#8) ∧ t.wave.held = none ∧
    t.temp = { cycle := .ready, timer := some 1000,
               settings := { source := .timer, divider := 1, period := 1000, gap := 10, hysteresis := 16, failLimit := 3,
                             comparator := .off },
               comparator := .off, status := .noneYet, lastValid := none, failures := 0, boundaries := [], band := 0,
               bandLatch := none, noticeLatch := none, reference := none, drops := 0#8, divider := 0, fresh := false } ∧
    t.sched.queue = [] ∧
    t.ghost = { tiles := [],
                policy := { residueLimit := 768, chargeLimit := 12000, weightClear := 0, weightTone16 := 8, weightTone4 := 12,
                            weightDuo := 16, weightQuick := 32, settle := 20, autoRecovery := true, freshSample := false } } ∧
    (∀ i : Fin 16, t.frame.slots[i] = none) ∧ t.frame.admissions = [] ∧ t.frame.period = 12000 ∧ t.frame.counter = 0#16 ∧
    t.frame.idle = 0 ∧ t.frame.phase = .stopped ∧ t.frame.driveActive = false ∧
    t.rail = { state := .off, rampTimeout := 40, dischargeTime := 30, lingerFrames := 50, pwrGood := s.rail.pwrGood } ∧
    t.notice = { kinds := 0#9, enables := 0#9, mode := .level, polarity := .activeLow, records := [], waits := [],
                 ended := [] } ∧
    t.link = { framing := .selectWait, frames := [], replies := [], hold := false, attn := false } ∧
    t.link.rxFree = 16384 ∧ t.attnHigh = true ∧ t.pending = s.pending

/-! ### Receipt -/

/-- The bytes a transaction takes without an answer: the first whole byte decides its kind, an ignored transaction drops every
further byte, sync and header bytes are counted, payload bytes are stored, the last one completes the frame, and skipped bytes
are dropped until the skip ends. -/
def Obligations.ReceivedBytesTaken : Prop :=
  (∀ (b : Byte) (s : State), s.link.sound →
     (s.link.framing = .selectWait → exec (.transactionPrefix b) s = .next { s with
       link.framing := if b = 0x01#8 then .header [] else if b = 0x02#8 then .read 0 false else .ignore }) ∧
     (s.link.framing = .ignore →
       ∀ c ∈ [Instr.transactionPrefix b, .badSync b, .headerTaken b, .frameComplete b, .skipEnd b, .frameByteReceived b],
         exec c s = .next s)) ∧
  (∀ (b : Byte) (s : State), s.link.sound →
     (s.link.framing = .header [] →
       exec (.frameByteReceived 0xC3#8) s = .next { s with link.framing := .header [0xC3#8] }) ∧
     (∀ got, s.link.framing = .header got → 1 ≤ got.length → got.length < 5 →
       exec (.frameByteReceived b) s = .next { s with link.framing := .header (got ++ [b]) }) ∧
     (∀ kind tag n got, s.link.framing = .payload kind tag n got → got.length + 1 < n →
       exec (.frameByteReceived b) s = .next { s with link.framing := .payload kind tag n (got ++ [b]) }) ∧
     (∀ kind tag n got, s.link.framing = .payload kind tag n got → got.length + 1 = n →
       exec (.frameComplete b) s = .next { s with
         link := { s.link with
           framing := .header [], frames := s.link.frames ++ [{ kind := kind, tag := tag, payload := got ++ [b] }] } }) ∧
     (∀ n, s.link.framing = .skip n → 1 < n →
       exec (.frameByteReceived b) s = .next { s with link.framing := .skip (n - 1) }) ∧
     (s.link.framing = .skip 1 → exec (.skipEnd b) s = .next { s with link.framing := .header [] }))

/-- A byte 0 of a frame other than 0xC3 makes a FRAMING reply with reason SYNC, tag 0xFFFF and kind 0; the rest of the
transaction is dropped, and the frames completed before stand. -/
def Obligations.BadSyncDiscards : Prop :=
  (∀ c : Instr, c.requestKind ≠ some 0x00#8) ∧
  ∀ (b : Byte) (s : State), s.link.framing = .header [] → b ≠ 0xC3#8 → ∃ t, exec (.badSync b) s = .next t ∧
    t = (s.setFraming .discard).receiptReply { kind := 0x00#8, tag := 0xFFFF#16, status := .framing, payload := [0x00#8] } ∧
    t.link.framing = .discard ∧ t.link.frames = s.link.frames ∧
    ∀ d : Byte, ∀ c ∈ [Instr.transactionPrefix d, .badSync d, .headerTaken d, .frameComplete d, .skipEnd d,
        .frameByteReceived d], exec c t = .next t

/-- The replies of ENDED waits are placed while there is room, in the order the waits ended; a reply made on receipt leaves every
place first to them, takes a place that is left, and is dropped where none is. That they are placed in those events is the
model's reading (log entry 6). -/
def Obligations.WaitsGoBeforeReceiptReplies : Prop :=
  ∀ (r : Reply) (s : State), s.link.replies.length ≤ 32 →
    let free := 32 - s.link.replies.length
    (s.serveWaits = { s with
      notice.ended := s.notice.ended.drop free,
      link := { s.link with
        replies := s.link.replies ++ (s.notice.ended.take free).map EndedWait.reply, attn := s.serveWaits.link.attn } }) ∧
    s.receiptReply r = { s with
      notice.ended := s.notice.ended.drop free,
      link := { s.link with
        replies := s.link.replies ++ (s.notice.ended.take free).map EndedWait.reply ++
          (if s.notice.ended.length < free then [r] else []),
        attn := (s.receiptReply r).link.attn } }

/-- The taking of a header with its sixth byte: a length above 4112 is refused and skipped; a frame without room is an
overrun; a frame of length 0 is complete; any other frame reserves its room. The free count is 16384 less six bytes and the payload
of every frame held and of an unfinished one, and HOLD is redrawn from it at every change of the framing state. -/
def Obligations.HeaderTaken : Prop :=
  ((∀ l : MessageLink, l.rxFree = 16384 - ((l.frames.map fun f => 6 + f.payload.length).sum +
       match l.framing with
       | .payload _ _ n _ => 6 + n
       | _ => 0)) ∧
   (∀ l : MessageLink, l.drawHold = { l with
     hold := if l.rxFree < 4608 then true else if 9216 ≤ l.rxFree then false else l.hold }) ∧
   ∀ (fr : Framing) (s : State), s.setFraming fr = { s with
     link := ({ s.link with framing := fr } : MessageLink).drawHold }) ∧
  ∀ (b sync kind lo hi n0 : Byte) (s : State), s.link.framing = .header [sync, kind, lo, hi, n0] →
    let length := n0.toNat + 256 * b.toNat
    let tag : Tag := hi ++ lo
    (4112 < length → exec (.headerTaken b) s = .next ((s.setFraming (.skip length)).receiptReply
      { kind := kind, tag := tag, status := .badLength, payload := [] })) ∧
    (length ≤ 4112 → s.link.rxFree < 6 + length → exec (.headerTaken b) s =
      .next ((s.setFraming (if length = 0 then .header [] else .skip length)).receiptReply
        { kind := kind, tag := tag, status := .framing, payload := [0x02#8] })) ∧
    (length = 0 → 6 ≤ s.link.rxFree → exec (.headerTaken b) s = .next (({ s with
      link.frames := s.link.frames ++ [{ kind := kind, tag := tag, payload := [] }] } : State).setFraming (.header []))) ∧
    (0 < length → length ≤ 4112 → 6 + length ≤ s.link.rxFree → exec (.headerTaken b) s =
      .next (s.setFraming (.payload kind tag length [])))

/-- The bytes of a request frame, header and payload, delivered one after another where there is room for it, put exactly that
frame at the tail of the receive buffer, and HOLD follows its reservation. -/
def Obligations.FrameDelivered : Prop :=
  ∀ (kind : Byte) (tag : Tag) (payload : List Byte) (s : State), s.link.sound → s.link.framing = .header [] →
    payload.length ≤ 4112 → 6 + payload.length ≤ s.link.rxFree →
    runCommands (frameCommands kind tag payload) s = some { s with
      link := ({ s.link with
        frames := s.link.frames ++ [{ kind := kind, tag := tag, payload := payload }] } : MessageLink).drawHold }

/-- The release of the select line: an unfinished frame is dropped with its reservation and answered FRAMING with reason CUT,
carrying its tag and kind where they arrived; any other transaction ends without a reply. -/
def Obligations.SelectRelease : Prop :=
  ∀ s : State,
    (∀ got, s.link.framing = .header got → 1 ≤ got.length → exec .selectRelease s =
      .next ((s.setFraming .selectWait).receiptReply
        { kind := if 2 ≤ got.length then got.getD 1 0#8 else 0x00#8,
          tag := if 4 ≤ got.length then got.getD 3 0#8 ++ got.getD 2 0#8 else 0xFFFF#16,
          status := .framing, payload := [0x01#8] })) ∧
    (∀ kind tag n got, s.link.framing = .payload kind tag n got → exec .selectRelease s =
        .next ((s.setFraming .selectWait).receiptReply
          { kind := kind, tag := tag, status := .framing, payload := [0x01#8] }) ∧
      (s.link.reserved ≤ 16384 → (s.setFraming .selectWait).link.rxFree = s.link.rxFree + (6 + n))) ∧
    ((∀ got, s.link.framing = .header got → got = []) → (∀ kind tag n got, s.link.framing ≠ .payload kind tag n got) →
      exec .selectRelease s = .next (s.setFraming .selectWait)) ∧
    ∀ t, exec .selectRelease s = .next t → t.link.framing = .selectWait ∧ t.link.frames = s.link.frames

/-- HOLD follows the free count with hysteresis at every command, the free count falls at the taking of a header alone and
rises at the taking of a request, the dropping of a frame and the resets alone, and receipt pays no regard to HOLD. -/
def Obligations.HoldFollowsFreeCount : Prop :=
  (∀ (c : Instr) (s t : State), s.link.sound → exec c s = .next t →
    (t.link.rxFree < 4608 → t.link.hold = true) ∧
    (9216 ≤ t.link.rxFree → t.link.hold = false) ∧
    (4608 ≤ t.link.rxFree → t.link.rxFree < 9216 → t.link.hold = s.link.hold) ∧
    (t.link.rxFree < s.link.rxFree → ∃ b, c = .headerTaken b) ∧
    (s.link.rxFree < t.link.rxFree →
      c.requestKind.isSome = true ∨ c = .unknownKind ∨ c = .selectRelease ∨ c = .powerOnReset)) ∧
  (∀ s t, exec .powerOnReset s = .next t → t.link.rxFree = 16384 ∧ t.link.hold = false) ∧
  ∀ (b : Byte) (h : Bool) (s t u : State), exec (.headerTaken b) s = .next t →
    exec (.headerTaken b) { s with link.hold := h } = .next u →
    u.link.framing = t.link.framing ∧ u.link.frames = t.link.frames ∧ u.link.replies = t.link.replies

/-- Every command keeps the Message Link sound and every queue and list within its capacity: the framing state within its bounds,
the frames within the receive buffer, HOLD with the free count, at most thirty-two replies, eight pending entries, sixteen
completion records and four waits. -/
def Obligations.LinkAndListsStayBounded : Prop :=
  ∀ (c : Instr) (s t : State), s.link.sound → s.listsBounded → exec c s = .next t → t.link.sound ∧ t.listsBounded

/-! ### Replies -/

/-- A reply joins the tail of the reply queue; in mode LEVEL the line is then active, in mode PULSE a reply placed in an empty queue
begins a pulse and any other leaves the line as it was. REPLY_SENT, the last byte of the reply at the head, takes that reply out of
the queue, and the next one begins with its first byte; while bytes before the last are unsent the reply stays.
WAIT_REPLY_PLACED places the deferred reply of the wait that ended first and takes the wait out of the list. That the bytes before
the last come as FRAME_BYTE_RECEIVED is the model's choice (log entry 5), and so is that a REPLY_SENT before them leaves the state
as it is (log entry 2); that REPLY_SENT removes the reply alone, the place it frees being given to the waits by commands of their
own, is the model's reading (log entry 6). -/
def Obligations.RepliesLeaveAndWaitsFollow : Prop :=
  (∀ (r : Reply) (s : State), s.pushReply r = { s with
     link := { s.link with
       replies := s.link.replies ++ [r],
       attn := if s.notice.mode = .level then true else if s.link.replies = [] then true else s.link.attn } }) ∧
  ((∀ (s : State) (n : Nat) (r : Reply) (rs : List Reply), s.link.sound → s.link.framing = .read n false →
     s.link.replies = r :: rs →
     (n + 1 = r.bytes.length → exec .replySent s = .next { s with
       link := { s.link with
         framing := .read 0 false, replies := rs,
         attn := if s.notice.mode = .level then rs ≠ [] ∨ s.notice.kinds &&& s.notice.enables ≠ 0#9 else s.link.attn } }) ∧
     (n + 1 ≠ r.bytes.length → exec .replySent s = .next s)) ∧
   ∀ (s : State) (e : EndedWait) (es : List EndedWait), s.notice.ended = e :: es → s.link.replies.length < 32 →
     exec .waitReplyPlaced s = .next (({ s with notice.ended := es } : State).pushReply
       { kind := 0x82#8, tag := e.entry.requestTag, status := if e.timedOut then .timeout else .ok,
         payload := [e.entry.waitedTag.extractLsb' 0 8, e.entry.waitedTag.extractLsb' 8 8,
                     if e.timedOut then 0x02#8 else 0x01#8] }))

/-- A read sends the reply at the head byte by byte from its first byte, 0x3C, to its last, while it stays in the queue; its fifth
byte is the number of its status. A read with
an empty reply queue sends 0x00, and once its first idle byte has been clocked a reply placed later is not sent in it. That the
bytes of a read come as FRAME_BYTE_RECEIVED is the model's choice (log entry 5). -/
def Obligations.ReplyReadOut : Prop :=
  ((∀ (s : State) (r : Reply) (rs : List Reply), s.link.sound → s.link.framing = .read 0 false → s.link.replies = r :: rs →
     ∃ t, readBytes (r.bytes.length - 1) s = (r.bytes.dropLast, some t) ∧
       t = { s with link.framing := .read (r.bytes.length - 1) false } ∧ [t.txByte] = r.bytes.getLast?.toList ∧
       s.txByte = 0x3C#8) ∧
   (∀ (r : Reply), r.payload.length < 65536 →
     r.bytes = [0x3C#8, r.kind, r.tag.extractLsb' 0 8, r.tag.extractLsb' 8 8, BitVec.ofNat 8 r.status.code,
       BitVec.ofNat 8 (r.payload.length % 256), BitVec.ofNat 8 (r.payload.length / 256)] ++ r.payload) ∧
   ∀ st : Status, st.code = match st with
     | .ok => 0
     | .queued => 1
     | .held => 2
     | .unknownKind => 16
     | .badLength => 17
     | .badField => 18
     | .badRect => 19
     | .emptyRect => 20
     | .notSetUp => 21
     | .busy => 22
     | .queueFull => 23
     | .noWaveform => 24
     | .inUse => 25
     | .crcMismatch => 26
     | .badSet => 27
     | .limit => 28
     | .timeout => 29
     | .framing => 31) ∧
  (∀ (b : Byte) (s : State), s.link.sound → s.link.framing = .read 0 false → s.link.replies = [] →
     s.txByte = 0x00#8 ∧ exec (.frameByteReceived b) s = .next { s with link.framing := .read 0 true } ∧
     ∀ t : State, t.link.framing = .read 0 true →
       t.txByte = 0x00#8 ∧ exec .replySent t = .next t ∧ exec (.frameByteReceived b) t = .next t)

/-! ### The taking of requests -/

/-- A request is not taken while it is not the oldest complete frame, or while no place in the reply queue is left for it; that the
command then leaves the state as it is is the model's choice (log entry 2). A frame whose kind names no request is answered
UNKNOWN_KIND; the kinds that name one are the kinds of the requests. -/
def Obligations.RequestsTakenInTurn : Prop :=
  (∀ (c : Instr) (k : Byte) (s : State), c.requestKind = some k →
     (s.link.frames = [] ∨ (∃ f, s.link.frames.head? = some f ∧ f.kind ≠ k) ∨ 32 ≤ s.link.replies.length ∨
       s.notice.ended ≠ []) →
     exec c s = .next s) ∧
  ((∀ k : Byte, k ∈ knownKinds ↔ ∃ c : Instr, c.requestKind = some k) ∧
   ∀ (s : State) (f : Frame), s.offers f → (∀ c : Instr, c.requestKind ≠ some f.kind) →
     exec .unknownKind s = .next (s.released.replied f .unknownKind []))

/-- A request of fixed length whose payload has any other length is refused with BAD_LENGTH and has no other effect than its
taking. -/
def Obligations.BadLengthRefused : Prop :=
  ∀ (c : Instr) (k : Byte) (n : Nat) (s : State) (f : Frame), c.requestKind = some k → c.fixedLength = some n →
    s.offers f → f.kind = k → f.payload.length ≠ n → exec c s = .next (s.released.replied f .badLength [])

/-- STATUS answers OK with a record of 24 bytes whose fields, read back, are those of the state, the free count being the one after
the STATUS frame's own reservation is released. QUERY_QUEUE answers OK with every pending entry in queue order, LIST_WAVEFORMS with
the mark of the held commit and every installed set in order of mode and then of band, QUERY_SLOTS with the admission list and the
record of every slot. Numbers are read and sent least significant byte first, and an enumerated field carries the code of its
value. -/
def Obligations.StateReported : Prop :=
  (∀ (s : State) (f : Frame), s.offers f → f.kind = 0x01#8 → f.payload = [] → s.listsBounded → s.temp.sound →
     ∃ p : List Byte, exec .status s = .next (s.released.replied f .ok p) ∧ p.length = 24 ∧
       u8At p 0 = s.rail.state.code ∧ u8At p 1 = s.rail.state.causeCode ∧ u8At p 2 = s.frame.activeCount ∧
       u8At p 3 = s.sched.queue.length ∧ u8At p 4 = s.notice.records.length ∧ u8At p 5 = s.link.replies.length ∧
       u16At p 6 = s.released.link.rxFree ∧ i16At p 8 = s.temp.lastValid.getD (-32768) ∧ u8At p 10 = s.temp.band.val ∧
       u8At p 11 = s.temp.status.code ∧ u8At p 12 = s.temp.drops.toNat ∧ u8At p 13 = s.temp.comparator.code ∧
       i16At p 14 = s.temp.bandLatch.getD (-32768) ∧ i16At p 16 = s.temp.noticeLatch.getD (-32768) ∧
       u8At p 18 = (if s.wave.held.isSome then 1 else 0) ∧ (∀ h, s.wave.held = some h →
         u8At p 19 = h.mode.code ∧ u8At p 20 = h.band.val) ∧ (s.wave.held = none → u8At p 19 = 0 ∧ u8At p 20 = 0) ∧
       u8At p 21 = (if s.pixel.setUp then 1 else 0) ∧ u16At p 22 = s.frame.counter.toNat) ∧
  (∀ (s : State) (f : Frame), s.offers f → f.payload = [] →
     (f.kind = 0x42#8 → ∃ p, exec .queryQueue s = .next (s.released.replied f .ok p) ∧
       p.length = 2 + 18 * s.sched.queue.length ∧ p.take 2 = [BitVec.ofNat 8 s.sched.queue.length, 0x00#8] ∧
       ∀ n e, s.sched.queue[n]? = some e → (p.drop (2 + 18 * n)).take 18 =
         [BitVec.ofNat 8 n, if e.recovery then 0x01#8 else 0x00#8, e.tag.extractLsb' 0 8, e.tag.extractLsb' 8 8] ++
           encRect e.rect ++ encTileRect e.hull ++ [BitVec.ofNat 8 e.mode.code, BitVec.ofNat 8 e.policy.code]) ∧
     (f.kind = 0x23#8 → ∃ p, exec .listWaveforms s = .next (s.released.replied f .ok p) ∧
       let sets := s.wave.installed
       (∀ m b w, (m, b, w) ∈ sets ↔ s.wave.set? m b = some w) ∧
       sets.Pairwise (fun q r => 8 * q.1.code + q.2.1.val < 8 * r.1.code + r.2.1.val) ∧
       p.length = 4 + 8 * sets.length ∧ u8At p 0 = sets.length ∧ u8At p 1 = (if s.wave.held.isSome then 1 else 0) ∧
       (∀ h, s.wave.held = some h → u8At p 2 = h.mode.code ∧ u8At p 3 = h.band.val) ∧
       (s.wave.held = none → u8At p 2 = 0 ∧ u8At p 3 = 0) ∧
       ∀ n m b w, sets[n]? = some (m, b, w) → (p.drop (4 + 8 * n)).take 8 =
         [BitVec.ofNat 8 m.code, BitVec.ofNat 8 b.val, BitVec.ofNat 8 w.length, BitVec.ofNat 8 w.sequences.length,
          w.crc.extractLsb' 0 8, w.crc.extractLsb' 8 8,
          BitVec.ofNat 8 ((List.finRange 16).countP fun i =>
            (s.frame.slots[i]).any fun sl => sl.effective = m && sl.band = b), 0x00#8]) ∧
     (f.kind = 0x61#8 → s.frame.admissions.length ≤ 16 →
       ∃ p, exec .querySlots s = .next (s.released.replied f .ok p) ∧ p.length = 436 ∧
         u16At p 0 = s.frame.counter.toNat ∧ u8At p 2 = s.frame.activeCount ∧
         (∀ n : Nat, n < 16 → u8At p (4 + n) = ((s.frame.admissions[n]?).map Fin.val).getD 255) ∧
         ∀ i : Fin 16, (p.drop (20 + 26 * i.val)).take 26 = match s.frame.slots[i] with
           | none => List.replicate 26 0x00#8
           | some sl =>
             [BitVec.ofNat 8 sl.phase.code,
              BitVec.ofNat 8 ((if sl.escalated then 1 else 0) + (if sl.recovery then 2 else 0)), sl.tag.extractLsb' 0 8,
              sl.tag.extractLsb' 8 8, BitVec.ofNat 8 sl.requested.code, BitVec.ofNat 8 sl.effective.code,
              BitVec.ofNat 8 sl.band.val, BitVec.ofNat 8 sl.index, BitVec.ofNat 8 sl.length, 0x00#8] ++
               encRect sl.rect ++ encTileRect sl.hull ++ encU32 sl.changed)) ∧
  ((∀ (p : List Byte) (i : Nat),
      u8At p i = (p.getD i 0x00#8).toNat ∧ u16At p i = u8At p i + 256 * u8At p (i + 1) ∧
      i16At p i = (if u16At p i < 32768 then (u16At p i : Int) else (u16At p i : Int) - 65536) ∧
      (tagAt p i).toNat = u16At p i ∧
      rectAt p i = { x := u16At p i, y := u16At p (i + 2), w := u16At p (i + 4), h := u16At p (i + 6) } ∧
      tileRectAt p i = { col := u8At p i, row := u8At p (i + 1), cols := u8At p (i + 2), rows := u8At p (i + 3) }) ∧
   (∀ n : Nat, encU16 n = [BitVec.ofNat 8 n, BitVec.ofNat 8 (n / 256)] ∧
      encU32 n = [BitVec.ofNat 8 n, BitVec.ofNat 8 (n / 256), BitVec.ofNat 8 (n / 65536), BitVec.ofNat 8 (n / 16777216)]) ∧
   (∀ z : Int, -32768 ≤ z → z ≤ 32767 → encI16 z = encU16 (if 0 ≤ z then z else z + 65536).toNat) ∧
   (∀ r : Rect, encRect r = encU16 r.x ++ encU16 r.y ++ encU16 r.w ++ encU16 r.h) ∧
   ∀ t : TileRect, encTileRect t =
      [BitVec.ofNat 8 t.col, BitVec.ofNat 8 t.row, BitVec.ofNat 8 t.cols, BitVec.ofNat 8 t.rows]) ∧
  ([Mode.clear, .tone16, .tone4, .duo, .quick].map Mode.code = [0, 1, 2, 3, 4] ∧
   [Policy.auto, .strict, .force].map Policy.code = [0, 1, 2] ∧
   [TriggerSource.none, .frameStart, .timer, .railOn].map TriggerSource.code = [0, 1, 2, 3] ∧
   [ComparatorMode.off, .once, .change, .every].map ComparatorMode.code = [0, 1, 2, 3] ∧
   [SensorStatus.noneYet, .valid, .stale].map SensorStatus.code = [0, 1, 2] ∧
   [SlotPhase.driving, .stopping].map SlotPhase.code = [1, 2] ∧
   (∀ n : Nat, [RailState.off, .rising n, .on, .falling n, .faulted .ramp, .faulted .loss].map RailState.code =
      [0, 1, 2, 3, 4, 4] ∧
     [RailState.off, .rising n, .on, .falling n, .faulted .ramp, .faulted .loss].map RailState.causeCode =
      [0, 0, 0, 0, 1, 2]) ∧
   [AttnMode.level, .pulse].map AttnMode.code = [0, 1] ∧ [Polarity.activeLow, .activeHigh].map Polarity.code = [0, 1] ∧
   [NoticeKind.done, .failed, .overflow, .queueSpace, .idle, .commit, .temp, .sensor, .rail].map NoticeKind.number =
      [0, 1, 2, 3, 4, 5, 6, 7, 8])

/-! ### The soft reset -/

/-- RESET_PART drops everything in flight, keeps what the host has taught the part, lowers the rails, and places its reply in the
empty reply queue. It releases the tiles of the active slots as UNKNOWN with rest 0, keeping their residue and charge, and leaves
every other tile as it was. -/
def Obligations.SoftReset : Prop :=
  (∀ (s : State) (f : Frame), s.offers f → f.kind = 0x02#8 → f.payload = [] → s.planeSound → ∃ t,
     exec .resetPart s = .next t ∧
     (∀ i : Fin 16, t.frame.slots[i] = none) ∧ t.frame.admissions = [] ∧ t.frame.idle = 0 ∧ t.frame.phase = .stopped ∧
     t.frame.driveActive = false ∧ t.frame.period = s.frame.period ∧ t.frame.counter = s.frame.counter ∧
     t.sched.queue = [] ∧ t.ghost.policy = s.ghost.policy ∧
     t.pixel = { s.pixel with next := t.pixel.next } ∧
     (∀ x y, x < 2048 → t.pixel.next.level x y = s.pixel.believed.level x y) ∧
     t.wave = { s.wave with staging := [], held := none } ∧
     t.temp = { s.temp with
       cycle := .ready, divider := 0, fresh := false,
       timer := if s.temp.settings.source = .timer then some s.temp.settings.period else none } ∧
     t.rail = { s.rail with state := if s.rail.state = .off then .off else .falling s.rail.dischargeTime } ∧
     t.notice = { s.notice with kinds := 0#9, records := [], waits := [], ended := [] } ∧
     t.link.frames = [] ∧ t.link.rxFree = 16384 ∧ t.link.hold = false ∧
     t.link.replies = [{ kind := 0x02#8, tag := f.tag, status := .ok, payload := [] }] ∧ t.link.attn = true ∧
     t.link.framing = (match s.link.framing with
       | .header _ | .payload _ _ _ _ | .skip _ => .discard
       | .read _ _ => .read 0 true
       | fr => fr)) ∧
  (∀ (s t : State) (f : Frame), s.offers f → f.kind = 0x02#8 → f.payload = [] → s.ledgerSound →
     exec .resetPart s = .next t → t.ghost.tiles.length = s.ghost.tiles.length ∧
     ∀ i j, i < s.pixel.tileCols → j < s.pixel.tileRows →
       t.tile i j = if (s.tile i j).owner = none then s.tile i j
         else { s.tile i j with owner := none, condition := .unknown, rest := 0 })

/-! ### The panel and its planes -/

/-- PANEL_SETUP establishes the clamped geometry, a fresh tile table and white planes where the rails are OFF, no slot is active
and no entry waits, and is refused with BUSY otherwise. -/
def Obligations.PanelSetup : Prop :=
  ∀ (s : State) (f : Frame), s.offers f → f.kind = 0x10#8 → f.payload.length = 6 →
    let w := max 64 (min 2048 (u16At f.payload 0))
    let h := max 64 (min 1536 (u16At f.payload 2))
    let period := max 8000 (min 40000 (u16At f.payload 4))
    let cols := (w + 31) / 32
    let rows := (h + 31) / 32
    let idle := s.rail.state = .off ∧ (∀ i : Fin 16, s.frame.slots[i] = none) ∧ s.sched.queue = []
    (idle → ∃ p : PixelStore,
      exec .panelSetup s = .next (({ s.released with
          pixel := p,
          ghost.tiles := List.replicate (cols * rows)
            { owner := none, condition := .unknown, residue := 0, charge := 0, rest := 65535 },
          frame.period := period } : State).replied f .ok
        (encU16 w ++ encU16 h ++ encU16 period ++ [BitVec.ofNat 8 cols, BitVec.ofNat 8 rows])) ∧
      p.setUp = true ∧ p.width = w ∧ p.height = h ∧ p.tileCols = cols ∧ p.tileRows = rows ∧
      ∀ x y, p.image.level x y = 15#4 ∧ p.believed.level x y = 15#4 ∧ p.next.level x y = 15#4) ∧
    (¬ idle → exec .panelSetup s = .next (s.released.replied f .busy []))

/-- Every pixel of the panel lies in exactly one tile of the grid, and the extent of a tile rectangle on the grid is the set of the
panel's pixels that lie in its tiles. The hull of a rectangle of one pixel or more is exactly the set of the tiles its pixels lie
in, and hulls overlap exactly when they have a tile in common. -/
def Obligations.TilesAndHulls : Prop :=
  (∀ (p : PixelStore), p.tileCols = (p.width + 31) / 32 → p.tileRows = (p.height + 31) / 32 →
     (∀ x y, x < p.width → y < p.height → x / 32 < p.tileCols ∧ y / 32 < p.tileRows) ∧
     ∀ (t : TileRect), t.col + t.cols ≤ p.tileCols → t.row + t.rows ≤ p.tileRows → ∀ x y,
       (p.extent t).has x y = true ↔ x < p.width ∧ y < p.height ∧ t.has (x / 32) (y / 32) = true) ∧
  ((∀ r : Rect, 0 < r.w → 0 < r.h → ∀ i j,
     (hullOf r).has i j = true ↔ ∃ x y, r.has x y = true ∧ x / 32 = i ∧ y / 32 = j) ∧
   ∀ t u : TileRect, t.overlaps u = true ↔ ∃ i j, t.has i j = true ∧ u.has i j = true)

/-- The checks of WRITE_IMAGE in their order, each with its status, a refused one writing nothing. The formats are L4, L1 and L8 with
the codes, the alignments and the counts of data bytes of TABLE 1-3. A request that passes the checks sets the level of every pixel
of its rectangle to the level its data gives in its format, and no other pixel and nothing else of the part but the receive buffer
and the reply queue. -/
def Obligations.ImageWritten : Prop :=
  (∀ (s : State) (f : Frame), s.offers f → f.kind = 0x11#8 →
     let r := rectAt f.payload 2
     let refused := fun st => exec .writeImage s = .next (s.released.replied f st [])
     (f.payload.length < 10 → refused .badLength) ∧
     (10 ≤ f.payload.length → s.pixel.setUp = false → refused .notSetUp) ∧
     (10 ≤ f.payload.length → s.pixel.setUp = true → 2 < u8At f.payload 0 → refused .badField) ∧
     ∀ fmt : PixelFormat,
       let number := match fmt with
         | .l4 => 0
         | .l1 => 1
         | .l8 => 2
       let misaligned := match fmt with
         | .l4 => r.x % 2 = 1 ∨ r.w % 2 = 1
         | .l1 => r.x % 8 ≠ 0 ∨ r.w % 8 ≠ 0
         | .l8 => False
       let count := match fmt with
         | .l4 => r.w * r.h / 2
         | .l1 => r.w * r.h / 8
         | .l8 => r.w * r.h
       10 ≤ f.payload.length → s.pixel.setUp = true → u8At f.payload 0 = number →
       (r.w = 0 ∨ r.h = 0 → refused .emptyRect) ∧
       (0 < r.w → 0 < r.h →
         (s.pixel.width < r.x + r.w ∨ s.pixel.height < r.y + r.h ∨ misaligned → refused .badRect) ∧
         (r.x + r.w ≤ s.pixel.width → r.y + r.h ≤ s.pixel.height → ¬ misaligned →
           4096 < count ∨ f.payload.length ≠ 10 + count → refused .badLength))) ∧
  (∀ (s : State) (f : Frame) (fmt : PixelFormat), s.offers f → f.kind = 0x11#8 → s.memoryCanonical → s.pixel.width ≤ 2048 →
     let r := rectAt f.payload 2
     let number := match fmt with
       | .l4 => 0
       | .l1 => 1
       | .l8 => 2
     let aligned := match fmt with
       | .l4 => r.x % 2 = 0 ∧ r.w % 2 = 0
       | .l1 => r.x % 8 = 0 ∧ r.w % 8 = 0
       | .l8 => True
     let count := match fmt with
       | .l4 => r.w * r.h / 2
       | .l1 => r.w * r.h / 8
       | .l8 => r.w * r.h
     10 ≤ f.payload.length → s.pixel.setUp = true → u8At f.payload 0 = number → 0 < r.w → 0 < r.h →
     r.x + r.w ≤ s.pixel.width → r.y + r.h ≤ s.pixel.height → aligned → count ≤ 4096 → f.payload.length = 10 + count →
     ∃ image : Plane,
       exec .writeImage s = .next (({ s.released with pixel.image := image } : State).replied f .ok (encU32 (r.w * r.h))) ∧
       Memory.wf white image = true ∧
       ∀ x y, x < 2048 → image.level x y = if r.has x y then
           fmt.decodeLevel (f.payload.drop 10) ((y - r.y) * r.w + (x - r.x))
         else s.pixel.image.level x y) ∧
  (∀ (data : List Byte) (n : Nat),
     (PixelFormat.l4.decodeLevel data n).toNat =
       (if n % 2 = 0 then u8At data (n / 2) / 16 else u8At data (n / 2) % 16) ∧
     (PixelFormat.l1.decodeLevel data n).toNat = (if u8At data (n / 8) / 2 ^ (7 - n % 8) % 2 = 1 then 15 else 0) ∧
     (PixelFormat.l8.decodeLevel data n).toNat = u8At data n / 16)

/-- FILL_IMAGE: its checks in their order, and the fill of every pixel of its rectangle and of no other. -/
def Obligations.ImageFilled : Prop :=
  ∀ (s : State) (f : Frame), s.offers f → f.kind = 0x12#8 → f.payload.length = 10 → s.memoryCanonical →
    s.pixel.width ≤ 2048 →
    let r := rectAt f.payload 0
    let level := min (u8At f.payload 8) 15
    (s.pixel.setUp = false → exec .fillImage s = .next (s.released.replied f .notSetUp [])) ∧
    (s.pixel.setUp = true → r.w = 0 ∨ r.h = 0 → exec .fillImage s = .next (s.released.replied f .emptyRect [])) ∧
    (s.pixel.setUp = true → 0 < r.w → 0 < r.h → s.pixel.width < r.x + r.w ∨ s.pixel.height < r.y + r.h →
      exec .fillImage s = .next (s.released.replied f .badRect [])) ∧
    (s.pixel.setUp = true → 0 < r.w → 0 < r.h → r.x + r.w ≤ s.pixel.width → r.y + r.h ≤ s.pixel.height →
      ∃ image : Plane, exec .fillImage s = .next (({ s.released with pixel.image := image } : State).replied f .ok
          (BitVec.ofNat 8 level :: 0x00#8 :: encU32 (r.w * r.h))) ∧
        ∀ x y, x < 2048 → image.level x y = if r.has x y then BitVec.ofNat 4 level else s.pixel.image.level x y)

/-- READ_IMAGE and READ_PANEL answer with the rectangle and the levels of the plane they read, two to a byte in the order of
the rectangle, the packing running on across rows; an odd count ends in four 0 bits. -/
def Obligations.LevelsRead : Prop :=
  ∀ (s : State) (f : Frame) (c : Instr) (plane : Plane), s.offers f → f.payload.length = 8 →
    (c = .readImage ∧ f.kind = 0x13#8 ∧ plane = s.pixel.image ∨
      c = .readPanel ∧ f.kind = 0x14#8 ∧ plane = s.pixel.believed) →
    let r := rectAt f.payload 0
    let refused := fun st => exec c s = .next (s.released.replied f st [])
    (s.pixel.setUp = false → refused .notSetUp) ∧
    (s.pixel.setUp = true → r.w = 0 ∨ r.h = 0 → refused .emptyRect) ∧
    (s.pixel.setUp = true → 0 < r.w → 0 < r.h →
      s.pixel.width < r.x + r.w ∨ s.pixel.height < r.y + r.h ∨ r.x % 2 = 1 ∨ 8192 < r.w * r.h → refused .badRect) ∧
    (s.pixel.setUp = true → 0 < r.w → 0 < r.h → r.x + r.w ≤ s.pixel.width → r.y + r.h ≤ s.pixel.height → r.x % 2 = 0 →
      r.w * r.h ≤ 8192 → ∃ data : List Byte,
        exec c s = .next (s.released.replied f .ok (encRect r ++ data)) ∧ data.length = (r.w * r.h + 1) / 2 ∧
        (∀ i j, i < r.w → j < r.h →
          (plane.level (r.x + i) (r.y + j)).toNat = if (j * r.w + i) % 2 = 0 then u8At data ((j * r.w + i) / 2) / 16
            else u8At data ((j * r.w + i) / 2) % 16) ∧
        (r.w * r.h % 2 = 1 → u8At data (r.w * r.h / 2) % 16 = 0))

/-- The image plane is changed by WRITE_IMAGE, FILL_IMAGE, PANEL_SETUP and a power-on reset alone; the believed levels by
a frame end, PANEL_SETUP and a power-on reset alone. -/
def Obligations.PlaneWriters : Prop :=
  ∀ (c : Instr) (s t : State), exec c s = .next t →
    (t.pixel.image ≠ s.pixel.image → c = .writeImage ∨ c = .fillImage ∨ c = .panelSetup ∨ c = .powerOnReset) ∧
    (t.pixel.believed ≠ s.pixel.believed → c = .frameEnd ∨ c = .panelSetup ∨ c = .powerOnReset)

/-- Every command keeps the panel plane sound: outside the drive sets of the active slots every pixel's next level equals its
believed level. -/
def Obligations.NextAgreesOutsideDriveSets : Prop :=
  ∀ (c : Instr) (s t : State), s.planeSound → exec c s = .next t → t.planeSound

/-! ### The waveform sets -/

/-- A quantized level is representable in its mode, and every other representable level lies farther away. -/
def Obligations.QuantizedToNearest : Prop :=
  ∀ (m : Mode) (l : Level),
    let levels : List Nat := match m with
      | .clear | .tone16 => List.range 16
      | .tone4 => [0, 5, 10, 15]
      | .duo | .quick => [0, 15]
    (quantize m l).toNat ∈ levels ∧
    ∀ n ∈ levels, n ≠ (quantize m l).toNat → Nat.dist l.toNat (quantize m l).toNat < Nat.dist l.toNat n

/-- LOAD_WAVEFORM: its checks in their order, and the copy of its chunk into the staging buffer and nowhere else. -/
def Obligations.WaveformLoaded : Prop :=
  ∀ (s : State) (f : Frame), s.offers f → f.kind = 0x20#8 → s.memoryCanonical →
    let offset := u16At f.payload 0
    let chunk := f.payload.drop 2
    let refused := fun st => exec .loadWaveform s = .next (s.released.replied f st [])
    (f.payload.length < 2 ∨ 4096 < chunk.length → refused .badLength) ∧
    (2 ≤ f.payload.length → chunk.length ≤ 4096 → s.wave.held ≠ none → refused .inUse) ∧
    (2 ≤ f.payload.length → chunk.length ≤ 4096 → s.wave.held = none → 16384 < offset + chunk.length → refused .badField) ∧
    (2 ≤ f.payload.length → chunk.length ≤ 4096 → s.wave.held = none → offset + chunk.length ≤ 16384 →
      ∃ w : WaveformStore,
        exec .loadWaveform s = .next (({ s.released with wave := w } : State).replied f .ok
          (encU16 offset ++ encU16 chunk.length)) ∧
        w = { s.wave with staging := w.staging } ∧ Memory.wf 0#8 w.staging = true ∧
        ∀ a, w.stagingByte a = if offset ≤ a ∧ a < offset + chunk.length then chunk.getD (a - offset) 0#8
          else s.wave.stagingByte a)

/-- The refusals of COMMIT_WAVEFORM in their order: fields, a held commit, the CRC, the content of the image. The CRC is formed byte
by byte from 0xFFFF: each byte into the upper eight bits, then eight shifts, with 0x1021 after a 1 is shifted out. -/
def Obligations.CommitRefused : Prop :=
  (∀ (s : State) (f : Frame), s.offers f → f.kind = 0x21#8 → f.payload.length = 6 →
     let n := u16At f.payload 2
     let crc := crc16 ((List.range n).map s.wave.stagingByte)
     let answered := fun st p => exec .commitWaveform s = .next (s.released.replied f st p)
     (4 < u8At f.payload 0 ∨ 7 < u8At f.payload 1 ∨ 16384 < n → answered .badField []) ∧
     ∀ (m : Mode) (b : Fin 8), u8At f.payload 0 = m.code → u8At f.payload 1 = b.val → n ≤ 16384 →
       (s.wave.held ≠ none → answered .inUse []) ∧
       (s.wave.held = none →
         (crc.toNat ≠ u16At f.payload 4 → answered .crcMismatch (encU16 crc.toNat)) ∧
         ∀ reason pos, crc.toNat = u16At f.payload 4 → s.wave.imageFault m b n = some (reason, pos) →
           answered .badSet ([BitVec.ofNat 8 reason, 0x00#8] ++ encU16 pos))) ∧
  (crc16 [] = 0xFFFF#16 ∧
   (∀ (bytes : List Byte) (b : Byte), crc16 (bytes ++ [b]) = (List.range 8).foldl
     (fun (r : BitVec 16) _ => if r.getLsbD 15 = true then (r <<< 1) ^^^ 0x1021#16 else r <<< 1)
     (crc16 bytes ^^^ (b.setWidth 16 <<< 8))) ∧
   crc16 [0x31#8, 0x32#8, 0x33#8, 0x34#8, 0x35#8, 0x36#8, 0x37#8, 0x38#8, 0x39#8] = 0x29B1#16)

/-- A commit whose image passes every check installs the set at once where no active slot uses the set of its mode and band,
and sets the held-commit record otherwise. The set is the one of the staged bytes: its frame length, its table and the code of
every frame of every sequence, and its charges are the DARKEN codes of each sequence less its LIGHTEN codes. -/
def Obligations.CommitInstallsOrHolds : Prop :=
  ∀ (s : State) (f : Frame) (m : Mode) (b : Fin 8), s.offers f → f.kind = 0x21#8 → f.payload.length = 6 →
    u8At f.payload 0 = m.code → u8At f.payload 1 = b.val → u16At f.payload 2 ≤ 16384 → s.wave.held = none →
    (crc16 ((List.range (u16At f.payload 2)).map s.wave.stagingByte)).toNat = u16At f.payload 4 →
    s.wave.imageFault m b (u16At f.payload 2) = none →
    let inUse := ∃ (i : Fin 16) (sl : Slot), s.frame.slots[i] = some sl ∧ sl.effective = m ∧ sl.band = b
    ∃ w : WaveformSet,
      let h : HeldCommit := { mode := m, band := b, length := u16At f.payload 2, crc := w.crc, charges := w.charges }
      w.sound ∧ w.crc.toNat = u16At f.payload 4 ∧ w.isStaged s.wave ∧
      (w.charges = w.sequences.map fun q => (q.count .darken : Int) - (q.count .lighten : Int)) ∧
      (∀ (from_ to_ : Level) (i : Nat), i < w.length → some (w.code from_ to_ i) =
        s.wave.stagedCode (s.wave.stagingByte (4 + 16 * from_.toNat + to_.toNat)).toNat i) ∧
      (¬ inUse → ∃ st : WaveformStore,
        exec .commitWaveform s = .next (({ s.released with wave := st } : State).replied f .ok
          [BitVec.ofNat 8 m.code, BitVec.ofNat 8 b.val, BitVec.ofNat 8 w.length, BitVec.ofNat 8 w.sequences.length,
           if (s.wave.set? m b).isSome then 0x01#8 else 0x00#8, 0x00#8]) ∧
        st.staging = s.wave.staging ∧ st.held = none ∧
        ∀ m' b', st.set? m' b' = if m' = m ∧ b' = b then some w else s.wave.set? m' b') ∧
      (inUse → exec .commitWaveform s = .next (({ s.released with wave.held := some h } : State).replied f .held
          [BitVec.ofNat 8 m.code, BitVec.ofNat 8 b.val, BitVec.ofNat 8 w.length, BitVec.ofNat 8 w.sequences.length,
           0x01#8, 0x00#8]))

/-- An image passes the content checks exactly when its header, its length, its table and its codes are as R30 asks. One that does
not has the reason code and the position of the first check it fails, in the order of TABLE 2-3: of several table entries or codes
at fault, those of the first. -/
def Obligations.ImageChecked : Prop :=
  ∀ (w : WaveformStore) (m : Mode) (b : Fin 8) (n : Nat),
    let L := (w.stagingByte 2).toNat
    let S := (w.stagingByte 3).toNat
    let size := 260 + S * ((L + 3) / 4)
    let entry := fun i => (w.stagingByte (4 + i)).toNat
    let code := fun k i => (w.stagingByte (260 + k * ((L + 3) / 4) + i / 4)).toNat / 4 ^ (3 - i % 4) % 4
    let fault := w.imageFault m b n
    (fault = none ↔
      (w.stagingByte 0).toNat = m.code ∧ (w.stagingByte 1).toNat = b.val ∧ 1 ≤ L ∧ L ≤ 120 ∧ 1 ≤ S ∧ S ≤ 64 ∧ n = size ∧
      (∀ i, i < 256 → entry i < S) ∧ ∀ k i, k < S → i < L → code k i ≠ 3) ∧
    (n < 4 → fault = some (1, 0)) ∧
    (4 ≤ n → (w.stagingByte 0).toNat ≠ m.code → fault = some (2, 0)) ∧
    (4 ≤ n → (w.stagingByte 0).toNat = m.code → (w.stagingByte 1).toNat ≠ b.val → fault = some (2, 1)) ∧
    (4 ≤ n → (w.stagingByte 0).toNat = m.code → (w.stagingByte 1).toNat = b.val →
      (L = 0 ∨ 120 < L → fault = some (3, 2)) ∧
      (1 ≤ L → L ≤ 120 → (S = 0 ∨ 64 < S → fault = some (4, 3)) ∧
        (1 ≤ S → S ≤ 64 → (n ≠ size → fault = some (5, size)) ∧
          (n = size →
            (∀ i, i < 256 → S ≤ entry i → (∀ j, j < i → entry j < S) → fault = some (6, i)) ∧
            ((∀ i, i < 256 → entry i < S) → ∀ k i, k < S → i < L → code k i = 3 →
              (∀ k' i', k' < S → i' < L → code k' i' = 3 → 128 * k + i ≤ 128 * k' + i') →
              fault = some (7, 128 * k + i))))))

/-- ERASE_WAVEFORM: its checks in their order, and the removal of the set it names and of no other. -/
def Obligations.WaveformErased : Prop :=
  ∀ (s : State) (f : Frame), s.offers f → f.kind = 0x22#8 → f.payload.length = 2 →
    let refused := fun st => exec .eraseWaveform s = .next (s.released.replied f st [])
    (4 < u8At f.payload 0 ∨ 7 < u8At f.payload 1 → refused .badField) ∧
    ∀ (m : Mode) (b : Fin 8), u8At f.payload 0 = m.code → u8At f.payload 1 = b.val →
      let inUse := ∃ (i : Fin 16) (sl : Slot), s.frame.slots[i] = some sl ∧ sl.effective = m ∧ sl.band = b
      (s.wave.held ≠ none → refused .inUse) ∧
      (s.wave.held = none → s.wave.set? m b = none → refused .noWaveform) ∧
      (s.wave.held = none → s.wave.set? m b ≠ none → inUse → refused .inUse) ∧
      (s.wave.held = none → s.wave.set? m b ≠ none → ¬ inUse → ∃ st : WaveformStore,
        exec .eraseWaveform s = .next (({ s.released with wave := st } : State).replied f .ok []) ∧
        st.staging = s.wave.staging ∧ st.held = none ∧
        ∀ m' b', st.set? m' b' = if m' = m ∧ b' = b then none else s.wave.set? m' b')

/-- The set that an active slot uses is neither replaced nor erased while the slot is active: after every command, the set of the
effective mode and band of each slot then active is the one that stood before the command. -/
def Obligations.SetInUseKept : Prop :=
  ∀ (c : Instr) (s t : State), exec c s = .next t → ∀ (i : Fin 16) (sl : Slot), t.frame.slots[i] = some sl →
    t.wave.set? sl.effective sl.band = s.wave.set? sl.effective sl.band

/-- Every command keeps the installed sets sound, the image of a held commit as it was checked, and the frame index of every
active slot below its frame length. -/
def Obligations.SetsStaySound : Prop :=
  ∀ (c : Instr) (s t : State), s.setsSound → exec c s = .next t → t.setsSound

/-! ### Temperature -/

/-- The word 0xFFFF is a failed sample; any other word is a valid sample whose T16 is its upper twelve bits as a two's complement
number, the lower four ignored. -/
def Obligations.SensorWordDecoded : Prop :=
  decodeSample 0xFFFF#16 = none ∧
  (∀ w : SensorWord, w ≠ 0xFFFF#16 → ∃ t : Int, decodeSample w = some t ∧ -2048 ≤ t ∧ t ≤ 2047 ∧
    w.toInt = 16 * t + ((w.toNat % 16 : Nat) : Int)) ∧
  (∀ w : SensorWord, 0xFFF0#16 ≤ w → w < 0xFFFF#16 → decodeSample w = some (-1)) ∧
  decodeSample 0x0E80#16 = some 232 ∧ decodeSample 0xF600#16 = some (-160) ∧
  ∀ (w : SensorWord) (s : State), s.temp.cycle = .sampling → w ≠ 0xFFFF#16 → ∃ t, exec (.sensorCycleEnd w) s = .next t ∧
    t.temp.lastValid = decodeSample w ∧ t.temp.status = .valid

/-- A trigger starts a cycle in READY and is dropped and counted in SAMPLING and GAP: SAMPLE_NOW under every source, the expiry of
the sensor timer, which starts again, the RAIL_ON event and the frame starts under their sources. -/
def Obligations.TriggersTaken : Prop :=
  (∀ u : TemperatureUnit, (u.cycle = .ready → u.trigger = { u with cycle := .sampling }) ∧
    (u.cycle ≠ .ready → u.trigger = { u with drops := u.drops + 1#8 })) ∧
  (∀ (s : State) (f : Frame), s.offers f → f.kind = 0x32#8 → f.payload = [] →
    exec .sampleNow s = .next (({ s.released with temp := s.temp.trigger } : State).replied f .ok
      [if s.temp.cycle = .ready then 0x01#8 else 0x00#8, s.temp.trigger.drops])) ∧
  (∀ s : State, s.temp.timer = some 0 → exec .sensorTimerExpiry s =
    .next { s with temp := ({ s.temp with timer := some s.temp.settings.period } : TemperatureUnit).trigger }) ∧
  (∀ u : TemperatureUnit, u.railOn = if u.settings.source = .railOn then
    ({ u with fresh := false } : TemperatureUnit).trigger else { u with fresh := false }) ∧
  ∀ u : TemperatureUnit,
    (u.settings.source ≠ .frameStart → u.frameStart = u) ∧
    (u.settings.source = .frameStart → u.divider + 1 < u.settings.divider →
      u.frameStart = { u with divider := u.divider + 1 }) ∧
    (u.settings.source = .frameStart → u.settings.divider ≤ u.divider + 1 →
      u.frameStart = ({ u with divider := 0 } : TemperatureUnit).trigger)

/-- The end of a failed cycle: the failure count advances to at most 15, the status turns STALE with the SENSOR notice where the
count reaches the fail limit, and nothing else of the reading changes. The end of a valid cycle: the sample is taken, an outside
sample selects the direct band and the band-change latch, and the comparator raises TEMP by its mode. After both the gap starts,
and ends in READY. -/
def Obligations.SensorCycleEnds : Prop :=
  ((∀ s : State, s.temp.cycle = .sampling →
     let n := min (s.temp.failures + 1) 15
     let u := { s.temp with cycle := .gap s.temp.settings.gap, failures := n }
     (s.temp.status = .stale ∨ n < s.temp.settings.failLimit →
       exec (.sensorCycleEnd 0xFFFF#16) s = .next { s with temp := u }) ∧
     (s.temp.status ≠ .stale → s.temp.settings.failLimit ≤ n → exec (.sensorCycleEnd 0xFFFF#16) s =
       .next (({ s with temp := { u with status := .stale } } : State).raise .sensor))) ∧
   ∀ s : State, s.temp.cycle = .gap 0 → exec .gapEnd s = .next { s with temp.cycle := .ready }) ∧
  (∀ (w : SensorWord) (v : Int) (s : State), s.temp.cycle = .sampling → decodeSample w = some v → s.temp.sound →
     let bs := s.temp.boundaries
     let c := s.temp.band.val
     let h : Int := s.temp.settings.hysteresis
     let inside := (c = 0 ∨ 16 * bs.getD (c - 1) 0 - h ≤ v) ∧ (c = bs.length ∨ v < 16 * bs.getD c 0 + h)
     let raises : Bool := match s.temp.comparator with
       | .off => false
       | .once => ¬ inside
       | .change => s.temp.reference = some true ∧ ¬ inside ∨ s.temp.reference = some false ∧ inside
       | .every => true
     ∃ u : TemperatureUnit, exec (.sensorCycleEnd w) s =
         .next (if raises then ({ s with temp := u } : State).raise .temp else { s with temp := u }) ∧
       u = { s.temp with
         cycle := .gap s.temp.settings.gap, lastValid := some v, failures := 0, status := .valid, fresh := true,
         band := u.band,
         bandLatch := if inside then s.temp.bandLatch else some v,
         noticeLatch := if raises then some v else s.temp.noticeLatch,
         comparator := if s.temp.comparator = .once ∧ ¬ inside then .off else s.temp.comparator,
         reference := if s.temp.comparator = .change then some (decide inside) else s.temp.reference } ∧
       (inside → u.band = s.temp.band) ∧ (¬ inside → u.band.val = bs.countP fun b => 16 * b ≤ v))

/-- The direct band is the number of boundaries at or below the temperature, an outside sample always lies in another band than the
current one, and with hysteresis 0 an inside sample lies in the current band. SET_BANDS: a band count outside 1 to 8 and
boundaries that do not ascend after clamping are refused; otherwise the table is replaced, the band recomputed from the last
valid sample, and the reference cleared. -/
def Obligations.BandsSelected : Prop :=
  (∀ (u : TemperatureUnit) (v : Int), u.sound →
     ((directBand u.boundaries v).val = u.boundaries.countP fun b => 16 * b ≤ v) ∧
     (insideBand u.boundaries u.band u.settings.hysteresis v = false → directBand u.boundaries v ≠ u.band) ∧
     (u.settings.hysteresis = 0 → insideBand u.boundaries u.band 0 v = true → directBand u.boundaries v = u.band)) ∧
  (∀ (s : State) (f : Frame), s.offers f → f.kind = 0x30#8 → f.payload.length = 16 →
     let k := u8At f.payload 0
     let b := fun i : Nat => max (-40) (min 85 (i16At f.payload (2 + 2 * i)))
     let ascending := ∀ i, i + 1 < k - 1 → b i < b (i + 1)
     (k = 0 ∨ 8 < k → exec .setBands s = .next (s.released.replied f .badField [])) ∧
     (1 ≤ k → k ≤ 8 → ¬ ascending → exec .setBands s = .next (s.released.replied f .badField [])) ∧
     (1 ≤ k → k ≤ 8 → ascending → ∃ (bs : List Int) (band : Fin 8),
       exec .setBands s = .next (({ s.released with
           temp := { s.temp with boundaries := bs, band := band, reference := none } } : State).replied f .ok
         ([BitVec.ofNat 8 k, BitVec.ofNat 8 band.val] ++
           ((List.range 7).map fun i => encI16 (if i < k - 1 then b i else 0)).flatten)) ∧
       bs.length = k - 1 ∧ (∀ i, i < k - 1 → bs[i]? = some (b i)) ∧
       (∀ v, s.temp.lastValid = some v → band.val = bs.countP fun x => 16 * x ≤ v) ∧
       (s.temp.lastValid = none → band = 0)))

/-- Every command keeps the Temperature Unit sound (a band table that R49 allows, a current band of it, every count and latch within
its range) and every tile's residue within 0 to 1023 and its charge within −32768 to +32767. -/
def Obligations.ValuesStayInRange : Prop :=
  ∀ (c : Instr) (s t : State), exec c s = .next t →
    (s.temp.sound → t.temp.sound) ∧ (s.accountsBounded → t.accountsBounded)

/-! ### Settings -/

/-- SET_SENSOR: an enumerated field outside its set is refused; otherwise the seven settings are replaced with their clamped
values, the divider count returns to 0, the timer starts or stops, and the comparator takes the mode sent. SET_POLICY: a flag
above 1 is refused; otherwise all ten settings are replaced with their clamped values. SET_RAILS replaces the three settings with
their clamped values and leaves running timers alone. -/
def Obligations.SettingsReplaced : Prop :=
  (∀ (s : State) (f : Frame), s.offers f → f.kind = 0x31#8 → f.payload.length = 8 →
     let p := f.payload
     (3 < u8At p 0 ∨ 3 < u8At p 1 → exec .setSensor s = .next (s.released.replied f .badField [])) ∧
     ∀ (source : TriggerSource) (mode : ComparatorMode), u8At p 0 = source.code → u8At p 1 = mode.code →
       let g : SensorSettings :=
         { source := source, comparator := mode, divider := max 1 (u8At p 2), gap := max 1 (u8At p 3),
           hysteresis := u8At p 4, failLimit := max 1 (min 15 (u8At p 5)), period := max 10 (min 60000 (u16At p 6)) }
       exec .setSensor s = .next (({ s.released with
           temp := { s.temp with
             settings := g, divider := 0, timer := if source = .timer then some g.period else none, comparator := mode,
             reference := if mode = .change then none else s.temp.reference } } : State).replied f .ok
         ([BitVec.ofNat 8 source.code, BitVec.ofNat 8 mode.code, BitVec.ofNat 8 g.divider, BitVec.ofNat 8 g.gap,
           BitVec.ofNat 8 g.hysteresis, BitVec.ofNat 8 g.failLimit] ++ encU16 g.period))) ∧
  (∀ (s : State) (f : Frame), s.offers f → f.kind = 0x52#8 → f.payload.length = 14 →
     let p := f.payload
     (1 < u8At p 11 ∨ 1 < u8At p 12 → exec .setPolicy s = .next (s.released.replied f .badField [])) ∧
     (u8At p 11 ≤ 1 → u8At p 12 ≤ 1 →
       let g : GhostPolicy :=
         { residueLimit := max 1 (min 1023 (u16At p 0)), chargeLimit := max 1 (min 32767 (u16At p 2)),
           settle := min 2000 (u16At p 4), weightClear := u8At p 6, weightTone16 := u8At p 7, weightTone4 := u8At p 8,
           weightDuo := u8At p 9, weightQuick := u8At p 10, autoRecovery := u8At p 11 == 1, freshSample := u8At p 12 == 1 }
       exec .setPolicy s = .next (({ s.released with ghost.policy := g } : State).replied f .ok
         (encU16 g.residueLimit ++ encU16 g.chargeLimit ++ encU16 g.settle ++ (p.drop 6).take 7 ++ [0x00#8])))) ∧
  (∀ (s : State) (f : Frame), s.offers f → f.kind = 0x70#8 → f.payload.length = 6 →
    let ramp := max 1 (min 255 (u16At f.payload 0))
    let discharge := max 1 (min 255 (u16At f.payload 2))
    let linger := min 1000 (u16At f.payload 4)
    exec .setRails s = .next (({ s.released with
        rail := { s.rail with rampTimeout := ramp, dischargeTime := discharge, lingerFrames := linger } } : State).replied
      f .ok (encU16 ramp ++ encU16 discharge ++ encU16 linger)))

/-! ### Updates and the queue -/

/-- The checks of START_UPDATE in their order, each with its status, a refused one making no entry. One that passes them joins the
tail of the queue clipped to the panel, with the hull of its clipped rectangle; in rail state OFF its acceptance begins the rise
of the supply. -/
def Obligations.UpdateStarted : Prop :=
  (∀ (s : State) (f : Frame), s.offers f → f.kind = 0x40#8 → f.payload.length = 10 →
     let r := rectAt f.payload 0
     let refused := fun st => exec .startUpdate s = .next (s.released.replied f st [])
     (s.pixel.setUp = false → refused .notSetUp) ∧
     (s.pixel.setUp = true → 4 < u8At f.payload 8 ∨ 2 < u8At f.payload 9 → refused .badField) ∧
     ∀ (m : Mode) (policy : Policy), s.pixel.setUp = true → u8At f.payload 8 = m.code → u8At f.payload 9 = policy.code →
       (s.pixel.width ≤ r.x ∨ r.w = 0 ∨ s.pixel.height ≤ r.y ∨ r.h = 0 → refused .emptyRect) ∧
       (r.x < s.pixel.width → r.y < s.pixel.height → 0 < r.w → 0 < r.h →
         (s.wave.set? m s.temp.band = none → refused .noWaveform) ∧
         (s.wave.set? m s.temp.band ≠ none → 8 ≤ s.sched.queue.length → refused .queueFull))) ∧
  (∀ (s : State) (f : Frame) (m : Mode) (policy : Policy), s.offers f → f.kind = 0x40#8 → f.payload.length = 10 →
     let r := rectAt f.payload 0
     s.pixel.setUp = true → u8At f.payload 8 = m.code → u8At f.payload 9 = policy.code →
     r.x < s.pixel.width → r.y < s.pixel.height → 0 < r.w → 0 < r.h → s.wave.set? m s.temp.band ≠ none →
     s.sched.queue.length < 8 →
     let q : Rect := { x := r.x, y := r.y, w := min r.w (s.pixel.width - r.x), h := min r.h (s.pixel.height - r.y) }
     let hull : TileRect :=
       { col := q.x / 32, row := q.y / 32,
         cols := (q.x + q.w - 1) / 32 - q.x / 32 + 1, rows := (q.y + q.h - 1) / 32 - q.y / 32 + 1 }
     exec .startUpdate s = .next (({ s.released with
         sched.queue := s.sched.queue ++
           [{ tag := f.tag, rect := q, hull := hull, mode := m, policy := policy, recovery := false }],
         rail.state := if s.rail.state = .off then .rising s.rail.rampTimeout else s.rail.state } : State).replied f .queued
       ([BitVec.ofNat 8 s.sched.queue.length, 0x00#8] ++ encRect q ++ encTileRect hull)))

/-- CANCEL_UPDATE removes every pending entry with its tag, keeps the order of the rest and touches no slot; STOP_ALL removes
every entry and makes every DRIVING slot STOPPING. Each answers with its counts, and raises QUEUE_SPACE where the queue falls from
eight entries, and IDLE where it empties it with no slot active. An admission pass in progress goes on at the first entry it has
not examined, and ends where none is left, which is the model's reading (log entry 7), and so is that the reply goes before the
replies of the waits the request ends (log entry 10). -/
def Obligations.QueueEmptied : Prop :=
  ∀ (s : State) (f : Frame), s.offers f →
    let q := s.sched.queue
    let quiet := ∀ i : Fin 16, s.frame.slots[i] = none
    let noticed := fun (left : List PendingEntry) (u : State) =>
      let v := if 8 ≤ q.length ∧ left.length < 8 then u.raise .queueSpace else u
      if left.length < q.length ∧ left = [] ∧ quiet then v.raise .idle else v
    (f.kind = 0x41#8 → f.payload.length = 2 →
      let stays := fun e : PendingEntry => decide (e.tag ≠ tagAt f.payload 0)
      let left := q.filter stays
      let phase := match s.frame.phase with
        | .pass n => .pass ((q.take n).countP stays)
        | p => p
      let t := (noticed left { s.released with sched.queue := left, frame.phase := phase }).settlePass.replied f .ok
        [BitVec.ofNat 8 (q.length - left.length), 0x00#8]
      exec .cancelUpdate s = .next (if left.length < q.length then t.endWaits [tagAt f.payload 0] else t)) ∧
    (f.kind = 0x60#8 → f.payload = [] →
      ∃ slots : Vector (Option Slot) 16,
        let phase := match s.frame.phase with
          | .pass _ => .pass 0
          | p => p
        let u : State := { s.released with sched.queue := [], frame := { s.frame with slots := slots, phase := phase } }
        let t := (noticed [] u).settlePass.replied f .ok
          [BitVec.ofNat 8 (s.frame.active.countP fun a => a.2.phase = .driving), BitVec.ofNat 8 q.length]
        exec .stopAll s = .next (if q = [] then t else t.endWaits (q.map PendingEntry.tag)) ∧
        ∀ i : Fin 16, slots[i] = s.frame.slots[i].map fun sl => { sl with phase := .stopping })

/-! ### Admission -/

/-- FRAME_START advances the frame counter, gives the frame start to the Temperature Unit and opens the admission pass; with an
empty queue the pass has ended at once, and the idle-frame count, the fall of the rails and the drive follow. At the end of any pass
an active slot or a waiting entry makes the count 0 and the frame is driven, with DRIVE_ACTIVE exactly where some pixel of a drive
set receives another code than REST; a pass with an entry left to examine goes on. That the pass ends within the command that
leaves nothing to examine is the model's reading (log entry 7). -/
def Obligations.FrameStart : Prop :=
  let idles := fun s : State => ∀ i : Fin 16, s.frame.slots[i] = none
  let drives := fun s : State => ∃ (i : Fin 16) (sl : Slot) (w : WaveformSet) (x y : Nat), s.frame.slots[i] = some sl ∧
    s.wave.set? sl.effective sl.band = some w ∧ (s.pixel.driveSet sl).has x y = true ∧
    w.code (s.pixel.believed.level x y) (s.pixel.next.level x y) sl.index ≠ .rest
  (∀ s : State, s.rail.state = .on → s.frame.phase = .between →
    let u : State := { s with frame.counter := s.frame.counter + 1#16, temp := s.temp.frameStart }
    let n := min (s.frame.idle + 1) 1000
    (s.sched.queue ≠ [] → exec .frameStart s = .next { u with frame.phase := .pass 0 }) ∧
    (s.sched.queue = [] → ¬ idles s → ∃ active : Bool, exec .frameStart s =
        .next { u with frame := { u.frame with idle := 0, phase := .driven, driveActive := active } } ∧
      (active = true ↔ drives s)) ∧
    (s.sched.queue = [] → idles s → n < s.rail.lingerFrames → exec .frameStart s =
      .next { u with frame := { u.frame with idle := n, phase := .driven, driveActive := false } }) ∧
    (s.sched.queue = [] → idles s → s.rail.lingerFrames ≤ n → exec .frameStart s =
      .next { u with
        rail.state := .falling s.rail.dischargeTime,
        frame := { u.frame with idle := n, phase := .stopped, driveActive := false } })) ∧
  (∀ s : State, (∀ k, s.frame.phase = .pass k → k < s.sched.queue.length) → s.settlePass = s) ∧
  ∀ (s : State) (k : Nat), s.frame.phase = .pass k → s.sched.queue.length ≤ k →
    let n := min (s.frame.idle + 1) 1000
    (s.sched.queue ≠ [] ∨ ¬ idles s → ∃ active : Bool,
      s.settlePass = { s with frame := { s.frame with idle := 0, phase := .driven, driveActive := active } } ∧
      (active = true ↔ drives s)) ∧
    (s.sched.queue = [] → idles s → n < s.rail.lingerFrames →
      s.settlePass = { s with frame := { s.frame with idle := n, phase := .driven, driveActive := false } }) ∧
    (s.sched.queue = [] → idles s → s.rail.lingerFrames ≤ n →
      s.settlePass = { s with
        rail.state := .falling s.rail.dischargeTime,
        frame := { s.frame with idle := n, phase := .stopped, driveActive := false } })

/-- The examination of the next entry: it waits in its place where a condition (a) to (d) or (f) fails, or where a commit is held
for the set its plan would drive; it leaves with a record where its plan refuses it; otherwise it takes the lowest-numbered FREE
slot. An entry that leaves raises QUEUE_SPACE where the queue falls from eight entries, and a refused one IDLE where it was the
last and no slot is active. That the pass ends, with what follows it, in the examination that leaves nothing to examine is the
model's reading (log entry 7). -/
def Obligations.EntryExamined : Prop :=
  ∀ (s : State) (n : Nat) (e : PendingEntry), s.rail.state = .on → s.frame.phase = .pass n → s.sched.queue[n]? = some e →
    let b := s.temp.band
    let q := s.sched.queue
    let left := q.eraseIdx n
    let quiet := ∀ i : Fin 16, s.frame.slots[i] = none
    let falls := fun u : State => if 8 ≤ q.length ∧ left.length < 8 then u.raise .queueSpace else u
    let waits := exec .entryExamination s = .next ({ s with frame.phase := .pass (n + 1) } : State).settlePass
    (¬ s.mayGo n e → waits) ∧
    (s.mayGo n e → ∀ eff esc, s.plan e b = .drive eff esc →
      (∃ h, s.wave.held = some h ∧ h.mode = eff ∧ h.band = b) → waits) ∧
    (s.mayGo n e → ∀ o eff esc, s.plan e b = .refused o eff esc →
      let recorded := s.joinRecord
        { tag := e.tag, slot := none, outcome := o, effective := eff, escalated := esc, recovery := e.recovery, band := b,
          frames := 0, hull := e.hull }
      let u := falls { recorded with sched.queue := left }
      exec .entryExamination s =
        .next ((if left = [] ∧ quiet then u.raise .idle else u).endWaits [e.tag]).settlePass) ∧
    (s.mayGo n e → ∀ eff esc, s.plan e b = .drive eff esc →
      (¬ ∃ h, s.wave.held = some h ∧ h.mode = eff ∧ h.band = b) → ∃ i : Fin 16, s.frame.slots[i] = none ∧
        (∀ j : Fin 16, j < i → s.frame.slots[j] ≠ none) ∧ exec .entryExamination s =
          .next ((falls { s.fillSlot i e eff esc b with sched.queue := left }).endWaits [e.tag]).settlePass)

/-- The filling of a slot writes, in one event, the slot record, the admission list, the records of the tiles of the hull, and
the next levels of the drive set, and nothing else. A tile of the hull takes the clear residue and the clear charge where the
effective mode is CLEAR, and the projected residue and charge where it is a partial mode; the slot's changed-pixel count is the sum
of the change counts of those tiles. -/
def Obligations.SlotFilled : Prop :=
  ∀ (s : State) (i : Fin 16) (e : PendingEntry) (eff : Mode) (esc : Bool) (b : Fin 8) (w : WaveformSet),
    s.memoryCanonical → s.pixel.width ≤ 2048 → s.pixel.kept e.rect e.hull →
    s.ghost.tiles.length = s.pixel.tileCols * s.pixel.tileRows → s.wave.set? eff b = some w →
    let t := s.fillSlot i e eff esc b
    let extent := s.pixel.extent e.hull
    t = { s with ghost.tiles := t.ghost.tiles, frame := t.frame, pixel.next := t.pixel.next } ∧
    t.frame = { s.frame with slots := t.frame.slots, admissions := s.frame.admissions ++ [i] } ∧
    (∀ j : Fin 16, j ≠ i → t.frame.slots[j] = s.frame.slots[j]) ∧
    t.frame.slots[i] = some
      { phase := .driving, tag := e.tag, requested := e.mode, effective := eff, escalated := esc, recovery := e.recovery,
        band := b, rect := e.rect, hull := e.hull, index := 0, length := w.length,
        changed := (e.hull.tiles.map fun q => s.changeCount e eff q.1 q.2).sum } ∧
    (∀ x y, x < s.pixel.tileCols → y < s.pixel.tileRows → t.tile x y =
      if e.hull.has x y = true then { s.tile x y with
        owner := some i,
        residue := if eff = .clear then s.clearResidue e x y else s.projectedResidue e x y,
        charge := if eff = .clear then s.clearCharge e b x y else s.projectedCharge e b x y }
      else s.tile x y) ∧
    ∀ x y, x < 2048 → t.pixel.next.level x y =
      if e.rect.has x y = true then quantize eff (s.pixel.image.level x y)
      else if eff = .clear ∧ extent.has x y = true then s.pixel.believed.level x y
      else s.pixel.next.level x y

/-- The decision of the plan, by requested mode, escalation and policy, and the sets it needs. -/
def Obligations.PlanDecided : Prop :=
  ∀ (s : State) (e : PendingEntry) (b : Fin 8),
    let needed := ∃ i j, e.hull.has i j = true ∧
      ((s.tile i j).condition = .unknown ∨ s.ghost.policy.residueLimit ≤ s.projectedResidue e i j ∨
        (s.ghost.policy.chargeLimit : Int) ≤ |s.projectedCharge e b i j|)
    (s.wave.set? e.mode b = none → s.plan e b = .refused .noWaveform e.mode false) ∧
    (s.wave.set? e.mode b ≠ none →
      (e.mode = .clear → s.plan e b = .drive .clear false) ∧
      (e.mode ≠ .clear → ¬ needed → s.plan e b = .drive e.mode false) ∧
      (e.mode ≠ .clear → needed → e.policy = .auto → s.wave.set? .clear b ≠ none → s.plan e b = .drive .clear true) ∧
      (e.mode ≠ .clear → needed → e.policy = .auto → s.wave.set? .clear b = none →
        s.plan e b = .refused .noWaveform .clear true) ∧
      (e.mode ≠ .clear → needed → e.policy = .strict → s.plan e b = .refused .refusedGhost e.mode false) ∧
      (e.mode ≠ .clear → needed → e.policy = .force → s.plan e b = .drive e.mode false))

/-- The residue increment is the weight of the requested mode times the change count over 1024, rounded up, from 0 to 255, and
the projected residue is the residue plus it, at most 1023. -/
def Obligations.ResidueProjected : Prop :=
  (∀ (s : State) (e : PendingEntry) (i j : Nat),
    let weight := match e.mode with
      | .clear => s.ghost.policy.weightClear
      | .tone16 => s.ghost.policy.weightTone16
      | .tone4 => s.ghost.policy.weightTone4
      | .duo => s.ghost.policy.weightDuo
      | .quick => s.ghost.policy.weightQuick
    s.projectedResidue e i j = min 1023 ((s.tile i j).residue + increment weight (s.changeCount e e.mode i j)) ∧
    s.changeCount e e.mode i j = (e.rect.inter (s.pixel.extent (oneTile i j))).pixels.countP (fun p =>
      quantize e.mode (s.pixel.image.level p.1 p.2) ≠ s.pixel.believed.level p.1 p.2) ∧
    s.changeCount e e.mode i j ≤ 1024 ∧ ((s.tile i j).residue = 1023 → s.projectedResidue e i j = 1023)) ∧
  ∀ w c : Nat,
    increment w c = (w * c + 1023) / 1024 ∧ 1024 * increment w c < w * c + 1024 ∧ w * c ≤ 1024 * increment w c ∧
    (increment w c = 0 ↔ w = 0 ∨ c = 0) ∧ (1 ≤ w → w ≤ 255 → increment w 1 = 1) ∧
    (w ≤ 255 → c ≤ 1024 → increment w c ≤ 255) ∧ increment 255 1024 = 255

/-- The projected charge of a tile is its charge plus the exact sum of the requested mode's sequence charges over its rectangle
pixels, saturated once. The clear charge is the sum of the CLEAR charges over every pixel of the tile from nothing, towards the
image level inside the entry's rectangle and the believed level outside, saturated; the clear residue is the weight of CLEAR times
the count of the tile's rectangle pixels whose image level differs from their believed level, over 1024 and rounded up. The change
count of any mode counts the rectangle pixels whose quantized image level differs from their believed level. -/
def Obligations.ChargeProjected : Prop :=
  (∀ (s : State) (m : Mode) (b : Fin 8) (w : WaveformSet) (u v : Level), s.wave.set? m b = some w →
    s.pairCharge m b u v = w.charges.getD (w.table.getD (16 * u.toNat + v.toNat) 0) 0) ∧
  ∀ (s : State) (e : PendingEntry) (b : Fin 8) (i j : Nat),
    let tile := s.pixel.extent (oneTile i j)
    let inside := (e.rect.inter tile).pixels
    let total : Int := (s.tile i j).charge + (inside.map fun p =>
      s.pairCharge e.mode b (s.pixel.believed.level p.1 p.2) (quantize e.mode (s.pixel.image.level p.1 p.2))).sum
    let clear : Int := (tile.pixels.map fun p => s.pairCharge .clear b (s.pixel.believed.level p.1 p.2)
      (if e.rect.has p.1 p.2 = true then s.pixel.image.level p.1 p.2 else s.pixel.believed.level p.1 p.2)).sum
    let changes := inside.countP fun p => s.pixel.image.level p.1 p.2 ≠ s.pixel.believed.level p.1 p.2
    (total ≤ -32768 → s.projectedCharge e b i j = -32768) ∧
    (-32768 ≤ total → total ≤ 32767 → s.projectedCharge e b i j = total) ∧
    (32767 ≤ total → s.projectedCharge e b i j = 32767) ∧
    s.clearCharge e b i j = max (-32768) (min 32767 clear) ∧
    s.clearResidue e i j = (s.ghost.policy.weightClear * changes + 1023) / 1024 ∧
    (s.ghost.policy.weightClear ≤ 255 → s.clearResidue e i j ≤ 255) ∧
    ∀ m : Mode, s.changeCount e m i j =
      inside.countP fun p => quantize m (s.pixel.image.level p.1 p.2) ≠ s.pixel.believed.level p.1 p.2

/-- QUERY_TILES: its checks in their order, and the records of the tiles asked for, in rows from the top. MARK_TILES: its checks in
their order; FORGET makes the unowned tiles of its rectangle UNKNOWN, ABSOLVE clears their account and makes them KNOWN, owned
tiles and all others stay as they were. -/
def Obligations.TilesReportedAndMarked : Prop :=
  (∀ (s : State) (f : Frame), s.offers f → f.kind = 0x50#8 → f.payload.length = 4 →
     let r := tileRectAt f.payload 0
     let refused := fun st => exec .queryTiles s = .next (s.released.replied f st [])
     (s.pixel.setUp = false → refused .notSetUp) ∧
     (s.pixel.setUp = true → r.cols = 0 ∨ r.rows = 0 → refused .emptyRect) ∧
     (s.pixel.setUp = true → 0 < r.cols → 0 < r.rows →
       (s.pixel.tileCols < r.col + r.cols ∨ s.pixel.tileRows < r.row + r.rows → refused .badRect) ∧
       (r.col + r.cols ≤ s.pixel.tileCols → r.row + r.rows ≤ s.pixel.tileRows →
         (256 < r.cols * r.rows → refused .limit) ∧
         (r.cols * r.rows ≤ 256 → ∃ records : List Byte,
           exec .queryTiles s = .next (s.released.replied f .ok (encTileRect r ++ records)) ∧
           records.length = 8 * (r.cols * r.rows) ∧
           ∀ i j, i < r.cols → j < r.rows →
             (records.drop (8 * (j * r.cols + i))).take 8 =
               let t := s.tile (r.col + i) (r.row + j)
               [match t.owner with
                | some k => BitVec.ofNat 8 k.val
                | none => 0xFF#8,
                match t.condition with
                | .unknown => 0x00#8
                | .known => 0x01#8] ++
                 encU16 t.residue ++ encI16 t.charge ++ encU16 t.rest)))) ∧
  (∀ (s : State) (f : Frame), s.offers f → f.kind = 0x51#8 → f.payload.length = 6 →
     s.ghost.tiles.length = s.pixel.tileCols * s.pixel.tileRows →
     let r := tileRectAt f.payload 0
     let action := u8At f.payload 4
     let refused := fun st => exec .markTiles s = .next (s.released.replied f st [])
     let skipped := (r.tiles.filter fun q => (s.tile q.1 q.2).owner.isSome).length
     (s.pixel.setUp = false → refused .notSetUp) ∧
     (s.pixel.setUp = true → 1 < action → refused .badField) ∧
     (s.pixel.setUp = true → action ≤ 1 → r.cols = 0 ∨ r.rows = 0 → refused .emptyRect) ∧
     (s.pixel.setUp = true → action ≤ 1 → 0 < r.cols → 0 < r.rows →
       (s.pixel.tileCols < r.col + r.cols ∨ s.pixel.tileRows < r.row + r.rows → refused .badRect) ∧
       (r.col + r.cols ≤ s.pixel.tileCols → r.row + r.rows ≤ s.pixel.tileRows → ∃ tiles : List TileRecord,
         let t : State := { s.released with ghost.tiles := tiles }
         exec .markTiles s = .next (t.replied f .ok (encU16 (r.cols * r.rows - skipped) ++ encU16 skipped)) ∧
         tiles.length = s.ghost.tiles.length ∧
         ∀ i j, i < s.pixel.tileCols → j < s.pixel.tileRows → t.tile i j =
           if r.has i j = true ∧ (s.tile i j).owner = none then
             if action = 0 then { s.tile i j with condition := .unknown }
             else { s.tile i j with residue := 0, charge := 0, condition := .known }
           else s.tile i j)))

/-! ### Slots, frames and time -/

/-- TIMEBASE_TICK steps the rest of every unowned tile, the sensor timer, a gap, the ramp or discharge timer and the time left of
every WAITING entry by one millisecond, and changes nothing else, but that in RISING a PWR_GOOD that was active at the entry is
found in it and the rails enter ON. That the level known in RISING is the one of the entry, and that the sender orders the finding
and a ramp timer that runs out with it, is the model's choice (log entry 1); that a timer at 0 stays there until its expiry is
taken is the model's choice (log entry 8), and so is that the RAIL_ON trigger goes before the end of a gap that runs out in the
same millisecond (log entry 16). -/
def Obligations.MillisecondStepped : Prop :=
  ∀ s : State,
    let u : State := { s with
      ghost.tiles := s.ghost.tiles.map fun r => if r.owner = none then { r with rest := min (r.rest + 1) 65535 } else r,
      temp := { s.temp with
        timer := s.temp.timer.map fun n => n - 1,
        cycle := match s.temp.cycle with
          | .gap n => .gap (n - 1)
          | c => c },
      rail.state := (match s.rail.state with
        | .rising n => .rising (n - 1)
        | .falling n => .falling (n - 1)
        | r => r),
      notice.waits := s.notice.waits.map fun w => { w with timeLeft := w.timeLeft - 1 } }
    ((∀ n, s.rail.state = .rising n → n ≤ 1) ∨ s.rail.pwrGood = false → exec .timebaseTick s = .next u) ∧
    ∀ n, s.rail.state = .rising n → 2 ≤ n → s.rail.pwrGood = true → exec .timebaseTick s = .next { u with
      rail.state := .on, frame.idle := 0, frame.phase := .between, temp := u.temp.railOn }

/-- A frame end advances every active slot: one that has driven its last frame is freed DONE, a STOPPING one before it is freed
ABORTED, and every other takes the next frame index; the queue, the rails and the frame's counts stay as they were. The records
join the completion list in admission-list order, each with its outcome and the frames driven; of more than sixteen the newest
stay. The kinds that become pending are DONE, FAILED, OVERFLOW, IDLE and COMMIT, each exactly where its rule raises it; in mode PULSE
an enabled one that was not pending begins a pulse. Where the last slots that use the set of a held commit are freed, that set is
installed as it stands staged and the record is cleared; where one still uses it, or none of the freed ones did, nothing of the store
changes. Waits on the tags freed are tested last. -/
def Obligations.SlotsAdvanced : Prop :=
  (∀ s : State, s.rail.state = .on → s.frame.phase = .driven → s.frame.listSound → ∃ t, exec .frameEnd s = .next t ∧
     t.frame = { s.frame with
       phase := .between, driveActive := false, slots := t.frame.slots,
       admissions := s.frame.admissions.filter fun i => t.frame.slots[i].isSome } ∧
     t.sched = s.sched ∧ t.rail = s.rail ∧ t.temp = s.temp ∧ t.pixel.image = s.pixel.image ∧
     t.ghost.policy = s.ghost.policy ∧ t.wave.staging = s.wave.staging ∧
     ∀ i : Fin 16, t.frame.slots[i] = match s.frame.slots[i] with
       | none => none
       | some sl => if sl.index + 1 < sl.length ∧ sl.phase = .driving then some { sl with index := sl.index + 1 } else none) ∧
  (∀ s : State, s.rail.state = .on → s.frame.phase = .driven → s.frame.listSound → s.notice.records.length ≤ 16 →
     let stays := fun sl : Slot => sl.index + 1 < sl.length ∧ sl.phase = .driving
     let uses := fun (sl : Slot) (h : HeldCommit) => sl.effective = h.mode ∧ sl.band = h.band
     let releases := fun h : HeldCommit =>
       (∃ (i : Fin 16) (sl : Slot), s.frame.slots[i] = some sl ∧ ¬ stays sl ∧ uses sl h) ∧
       ¬ ∃ (i : Fin 16) (sl : Slot), s.frame.slots[i] = some sl ∧ stays sl ∧ uses sl h
     let made := s.frame.admissions.filterMap fun i => (s.frame.slots[i]).bind fun sl =>
       if sl.index + 1 < sl.length ∧ sl.phase = .driving then none
       else some ({ tag := sl.tag, slot := some i, outcome := if sl.index + 1 < sl.length then .aborted else .done,
                    effective := sl.effective, escalated := sl.escalated, recovery := sl.recovery, band := sl.band,
                    frames := if sl.index + 1 < sl.length then sl.index + 1 else sl.length, hull := sl.hull } :
                      CompletionRecord)
     let all := s.notice.records ++ made
     ∃ u : State, exec .frameEnd s = .next (u.endWaits (made.map CompletionRecord.tag)) ∧
       u.notice = { s.notice with kinds := u.notice.kinds, records := all.drop (all.length - 16) } ∧
       (∀ k : NoticeKind, KindSet.mem k u.notice.kinds = true ↔ KindSet.mem k s.notice.kinds = true ∨ match k with
         | .done => made ≠ []
         | .failed => ∃ r ∈ made, r.outcome ≠ .done
         | .overflow => 16 < all.length
         | .idle => made ≠ [] ∧ (∀ (i : Fin 16) (sl : Slot), s.frame.slots[i] = some sl → ¬ stays sl) ∧ s.sched.queue = []
         | .commit => ∃ h, s.wave.held = some h ∧ releases h
         | _ => False) ∧
       u.link = { s.link with attn := u.link.attn } ∧
       (s.notice.mode = .pulse → (u.link.attn = true ↔ s.link.attn = true ∨ ∃ k : NoticeKind,
         KindSet.mem k u.notice.kinds = true ∧ KindSet.mem k s.notice.enables = true ∧
         KindSet.mem k s.notice.kinds = false)) ∧
       (s.wave.held = none → u.wave = s.wave) ∧
       ∀ h, s.wave.held = some h → (¬ releases h → u.wave = s.wave) ∧
         (releases h → s.wave.heldSound h → ∃ w : WaveformSet,
           w.isStaged s.wave ∧ w.charges = h.charges ∧ w.crc = h.crc ∧ u.wave.held = none ∧ u.wave.staging = s.wave.staging ∧
           ∀ m b, u.wave.set? m b = if m = h.mode ∧ b = h.band then some w else s.wave.set? m b))

/-- At a frame end the believed level of a pixel becomes its next level where a slot that completes drives it, its next level
returns to its believed level where a slot that is aborted drives it, and both stay otherwise. The tiles of a slot that is freed
are released with rest 0: KNOWN where a CLEAR completes, with their condition where a partial update completes, UNKNOWN where it
is aborted; residue, charge and every other tile stay as they were. -/
def Obligations.FrameEndCommits : Prop :=
  (∀ s t : State, s.rail.state = .on → s.frame.phase = .driven → s.ledgerSound → s.memoryCanonical →
     exec .frameEnd s = .next t → ∀ x y, x < 2048 →
     (∀ (i : Fin 16) (sl : Slot), s.frame.slots[i] = some sl → (s.pixel.driveSet sl).has x y = true →
       t.pixel.believed.level x y =
         (if sl.index + 1 < sl.length then s.pixel.believed.level x y else s.pixel.next.level x y) ∧
       t.pixel.next.level x y =
         (if sl.index + 1 < sl.length ∧ sl.phase = .stopping then s.pixel.believed.level x y else s.pixel.next.level x y)) ∧
     ((∀ (i : Fin 16) (sl : Slot), s.frame.slots[i] = some sl → (s.pixel.driveSet sl).has x y = false) →
       t.pixel.believed.level x y = s.pixel.believed.level x y ∧ t.pixel.next.level x y = s.pixel.next.level x y)) ∧
  (∀ s t : State, s.rail.state = .on → s.frame.phase = .driven → s.ledgerSound → exec .frameEnd s = .next t →
     ∀ i j, i < s.pixel.tileCols → j < s.pixel.tileRows →
     ((s.tile i j).owner = none → t.tile i j = s.tile i j) ∧
     ∀ (k : Fin 16) (sl : Slot), (s.tile i j).owner = some k → s.frame.slots[k] = some sl → t.tile i j =
       if sl.index + 1 < sl.length then
         if sl.phase = .driving then s.tile i j else { s.tile i j with owner := none, rest := 0, condition := .unknown }
       else { s.tile i j with
         owner := none, rest := 0, condition := if sl.effective = .clear then .known else (s.tile i j).condition })

/-- The fields of an active slot but its state and its frame index stay as the admission wrote them, a STOPPING slot does not
return to DRIVING, and a slot is filled by an entry examination alone. -/
def Obligations.SlotRecordKept : Prop :=
  ∀ (c : Instr) (s t : State), exec c s = .next t → ∀ (i : Fin 16) (v : Slot), t.frame.slots[i] = some v →
    (∀ u, s.frame.slots[i] = some u →
      v = { u with phase := v.phase, index := v.index } ∧ (u.phase = .stopping → v.phase = .stopping)) ∧
    (s.frame.slots[i] = none → c = .entryExamination ∧ s.rail.state = .on ∧ v.phase = .driving ∧ v.index = 0)

/-- Every command keeps the ledger: the admission list holds the active slots, a tile is owned by a slot exactly when the slot is
active and holds it in its hull, rectangles and hulls stay true to the panel, and slots are active in ON alone. -/
def Obligations.LedgerStaysSound : Prop :=
  ∀ (c : Instr) (s t : State), s.ledgerSound → exec c s = .next t → t.ledgerSound

/-- No pixel lies in the drive sets of two active slots, so the code of a pixel in a driven frame is the one its slot's set names
for its levels and the slot's frame index, and REST outside every drive set and while no frame is driven. A drive set is the extent
of the hull under CLEAR and the slot's rectangle under a partial mode. -/
def Obligations.OneCodePerPixel : Prop :=
  ∀ s : State, s.ledgerSound → ∀ x y,
    (∀ (i j : Fin 16) (u v : Slot), s.frame.slots[i] = some u → s.frame.slots[j] = some v →
      (s.pixel.driveSet u).has x y = true → (s.pixel.driveSet v).has x y = true → i = j) ∧
    (∀ (i : Fin 16) (sl : Slot) (w : WaveformSet), s.frame.slots[i] = some sl → (s.pixel.driveSet sl).has x y = true →
      s.wave.set? sl.effective sl.band = some w → s.frame.phase = .driven →
      s.driveCode x y = w.code (s.pixel.believed.level x y) (s.pixel.next.level x y) sl.index) ∧
    ((∀ (i : Fin 16) (sl : Slot), s.frame.slots[i] = some sl → (s.pixel.driveSet sl).has x y = false) →
      s.driveCode x y = .rest) ∧
    (s.frame.phase ≠ .driven → s.driveCode x y = .rest) ∧
    ∀ sl : Slot, s.pixel.driveSet sl = if sl.effective = .clear then s.pixel.extent sl.hull else sl.rect

/-! ### The rails -/

/-- The rails rise and fall by their timers and PWR_GOOD: ON at PWR_GOOD in RISING, FAULTED with cause RAMP at the end of the ramp
timer, OFF at the end of the discharge, or RISING where entries wait; RAIL_EN is active in RISING and ON alone. RAIL_RESUME takes
FAULTED to FALLING with the discharge timer started and reports the cause it cleared; in every other rail state it has no
effect. That a PWR_GOOD known active in RISING with ramp time left was active at the entry, and is found at the millisecond and not
before, is the model's choice (log entry 1). -/
def Obligations.RailEvents : Prop :=
  ((∀ (s : State) (n : Nat), s.rail.state = .rising n →
     (n = 0 ∨ s.rail.pwrGood = false → exec .pwrGoodActive s = .next { s with
       rail := { s.rail with state := .on, pwrGood := true }, frame.idle := 0, frame.phase := .between,
       temp := s.temp.railOn }) ∧
     (1 ≤ n → s.rail.pwrGood = true → exec .pwrGoodActive s = .next s)) ∧
   (∀ s : State, (∀ n, s.rail.state ≠ .rising n) → exec .pwrGoodActive s = .next { s with rail.pwrGood := true }) ∧
   (∀ s : State, s.rail.state = .rising 0 → exec .rampTimerExpiry s =
     .next (({ s with rail.state := .faulted .ramp } : State).raise .rail)) ∧
   (∀ s : State, s.rail.state = .falling 0 → exec .dischargeTimerExpiry s =
     .next { s with rail.state := if s.sched.queue = [] then .off else .rising s.rail.rampTimeout }) ∧
   (∀ s : State, s.rail.state ≠ .on → exec .pwrGoodLoss s = .next { s with rail.pwrGood := false }) ∧
   ∀ s : State, s.railEn = true ↔ s.rail.state = .on ∨ ∃ n, s.rail.state = .rising n) ∧
  (∀ (s : State) (f : Frame), s.offers f → f.kind = 0x71#8 → f.payload = [] →
    (∀ cause, s.rail.state = .faulted cause → exec .railResume s = .next (({ s.released with
        rail.state := .falling s.rail.dischargeTime, frame.phase := .stopped, frame.driveActive := false } : State).replied
        f .ok [0x03#8, if cause = .ramp then 0x01#8 else 0x02#8])) ∧
    ((∀ cause, s.rail.state ≠ .faulted cause) → exec .railResume s =
      .next (s.released.replied f .ok [BitVec.ofNat 8 s.rail.state.code, 0x00#8])))

/-- The loss of PWR_GOOD in ON: FAULTED with cause LOSS and the RAIL notice, every slot freed with an ABORTED record in
admission-list order, frame timing and drive stopped, and recovery entries at the head of the queue while it holds fewer than
eight entries. The kinds that become pending are RAIL, DONE, FAILED, OVERFLOW, IDLE and COMMIT, each exactly where its rule raises it;
in mode PULSE an enabled one that was not pending begins a pulse. The set of a held commit that an aborted slot used is installed as
it stands staged and the record is cleared. The next level of every pixel that an aborted slot drove returns to its believed level,
and the tiles of its hull are released UNKNOWN with rest 0, keeping residue and charge; all others stay as they were. Waits on the
tags freed are tested last. That the idle-frame count stays as it was where the loss ends an admission pass is the model's choice
(log entry 17). -/
def Obligations.SupplyLost : Prop :=
  (∀ s : State, s.rail.state = .on → s.frame.listSound → s.notice.records.length ≤ 16 →
     let aborted := s.frame.admissions.filterMap fun i => s.frame.slots[i].map fun sl => (i, sl)
     let all := s.notice.records ++ aborted.map fun a =>
       ({ tag := a.2.tag, slot := some a.1, outcome := .aborted, effective := a.2.effective, escalated := a.2.escalated,
          recovery := a.2.recovery, band := a.2.band, frames := a.2.index, hull := a.2.hull } : CompletionRecord)
     let entries := aborted.map fun a =>
       ({ tag := a.2.tag, rect := s.pixel.extent a.2.hull, hull := a.2.hull, mode := .clear, policy := .force,
          recovery := true } : PendingEntry)
     let releases := fun h : HeldCommit => ∃ a ∈ aborted, a.2.effective = h.mode ∧ a.2.band = h.band
     ∃ u : State, exec .pwrGoodLoss s = .next (u.endWaits (aborted.map fun a => a.2.tag)) ∧
       u.rail = { s.rail with state := .faulted .loss, pwrGood := false } ∧ (∀ i : Fin 16, u.frame.slots[i] = none) ∧
       u.frame = { s.frame with slots := u.frame.slots, admissions := [], phase := .stopped, driveActive := false } ∧
       u.temp = s.temp ∧ u.pixel = { s.pixel with next := u.pixel.next } ∧ u.ghost.policy = s.ghost.policy ∧
       u.pending = s.pending ∧
       u.sched.queue = (if s.ghost.policy.autoRecovery = true then entries.take (8 - s.sched.queue.length) else []) ++
         s.sched.queue ∧
       u.notice = { s.notice with kinds := u.notice.kinds, records := all.drop (all.length - 16) } ∧
       (∀ k : NoticeKind, KindSet.mem k u.notice.kinds = true ↔ KindSet.mem k s.notice.kinds = true ∨ match k with
         | .done => aborted ≠ []
         | .failed => aborted ≠ []
         | .overflow => 16 < all.length
         | .idle => aborted ≠ [] ∧ u.sched.queue = []
         | .commit => ∃ h, s.wave.held = some h ∧ releases h
         | .rail => True
         | _ => False) ∧
       u.link = { s.link with attn := u.link.attn } ∧
       (s.notice.mode = .pulse → (u.link.attn = true ↔ s.link.attn = true ∨ ∃ k : NoticeKind,
         KindSet.mem k u.notice.kinds = true ∧ KindSet.mem k s.notice.enables = true ∧
         KindSet.mem k s.notice.kinds = false)) ∧
       (s.wave.held = none → u.wave = s.wave) ∧
       ∀ h, s.wave.held = some h → (¬ releases h → u.wave = s.wave) ∧
         (releases h → s.wave.heldSound h → ∃ w : WaveformSet,
           w.isStaged s.wave ∧ w.charges = h.charges ∧ w.crc = h.crc ∧ u.wave.held = none ∧ u.wave.staging = s.wave.staging ∧
           ∀ m b, u.wave.set? m b = if m = h.mode ∧ b = h.band then some w else s.wave.set? m b)) ∧
  (∀ s t : State, s.rail.state = .on → s.ledgerSound → s.memoryCanonical → exec .pwrGoodLoss s = .next t →
     (∀ x y, x < 2048 →
       ((∃ (i : Fin 16) (sl : Slot), s.frame.slots[i] = some sl ∧ (s.pixel.driveSet sl).has x y = true) →
         t.pixel.next.level x y = s.pixel.believed.level x y) ∧
       ((∀ (i : Fin 16) (sl : Slot), s.frame.slots[i] = some sl → (s.pixel.driveSet sl).has x y = false) →
         t.pixel.next.level x y = s.pixel.next.level x y)) ∧
     t.ghost.tiles.length = s.ghost.tiles.length ∧
     ∀ i j, i < s.pixel.tileCols → j < s.pixel.tileRows →
       t.tile i j = if (s.tile i j).owner = none then s.tile i j
         else { s.tile i j with owner := none, condition := .unknown, rest := 0 })

/-- FAULTED is entered by a ramp fault and by the loss of PWR_GOOD alone, and left by RAIL_RESUME and the two resets alone. -/
def Obligations.FaultedLeftByHost : Prop :=
  ∀ (c : Instr) (s t : State), exec c s = .next t →
    (∀ cause, s.rail.state = .faulted cause → s.frame.phase = .stopped → t.rail.state ≠ .faulted cause →
      c = .railResume ∨ c = .resetPart ∨ c = .powerOnReset) ∧
    (∀ cause, t.rail.state = .faulted cause → s.rail.state ≠ .faulted cause →
      c = .rampTimerExpiry ∧ cause = .ramp ∧ s.rail.state = .rising 0 ∨
      c = .pwrGoodLoss ∧ cause = .loss ∧ s.rail.state = .on)

/-! ### Notices and waits -/

/-- A kind raised becomes pending, every other kind stays as it was, and nothing else changes but ATTN: in mode LEVEL it is active
exactly when a reply waits or an enabled kind is pending, in mode PULSE the kind begins a pulse where it is enabled and was not
pending, and leaves the line as it was otherwise. A record that joins the completion list stands at its tail, a full list first
loses its oldest and raises OVERFLOW, DONE is pending, and an outcome other than DONE raises FAILED. Active is the low level under polarity active-low and the high level under
active-high. SET_NOTICES: a mode or polarity above 1 is refused; otherwise the marked kinds join and then leave the enable set, the mode and
the polarity are replaced, and ATTN is redrawn; that a reply placed in an empty queue begins a pulse at a selection of PULSE too
is the model's reading (log entry 11). FETCH_NOTICES reports the pending set as it stood, removes and reports the oldest records,
up to eight, and acknowledges the marked kinds, DONE leaving with the last record alone; its reply then acts on ATTN as any other. -/
def Obligations.NoticesSetAndFetched : Prop :=
  ((∀ (k : NoticeKind) (s : State),
     let t := s.raise k
     t = { s with notice.kinds := t.notice.kinds, link.attn := t.link.attn } ∧
     (∀ j : NoticeKind, KindSet.mem j t.notice.kinds = true ↔ j = k ∨ KindSet.mem j s.notice.kinds = true) ∧
     (s.notice.mode = .level → (t.link.attn = true ↔ s.link.replies ≠ [] ∨ ∃ j : NoticeKind,
       KindSet.mem j t.notice.kinds = true ∧ KindSet.mem j s.notice.enables = true)) ∧
     (s.notice.mode = .pulse → (t.link.attn = true ↔ s.link.attn = true ∨
       KindSet.mem k s.notice.enables = true ∧ KindSet.mem k s.notice.kinds = false))) ∧
   (∀ (r : CompletionRecord) (s : State), s.notice.records.length ≤ 16 →
     let t := s.joinRecord r
     let all := s.notice.records ++ [r]
     t = { s with
       notice := { s.notice with kinds := t.notice.kinds, records := all.drop (all.length - 16) },
       link.attn := t.link.attn } ∧
     (∀ k : NoticeKind, KindSet.mem k t.notice.kinds = true ↔ KindSet.mem k s.notice.kinds = true ∨ k = .done ∨
       k = .overflow ∧ s.notice.records.length = 16 ∨ k = .failed ∧ r.outcome ≠ .done) ∧
     (s.notice.mode = .level → (t.link.attn = true ↔ s.link.replies ≠ [] ∨ ∃ j : NoticeKind,
       KindSet.mem j t.notice.kinds = true ∧ KindSet.mem j s.notice.enables = true)) ∧
     (s.notice.mode = .pulse → (t.link.attn = true ↔ s.link.attn = true ∨ ∃ j : NoticeKind,
       KindSet.mem j t.notice.kinds = true ∧ KindSet.mem j s.notice.enables = true ∧
       KindSet.mem j s.notice.kinds = false))) ∧
   ∀ s : State, (s.notice.polarity = .activeLow → (s.attnHigh = true ↔ s.link.attn = false)) ∧
     (s.notice.polarity = .activeHigh → (s.attnHigh = true ↔ s.link.attn = true))) ∧
  (∀ (s : State) (f : Frame), s.offers f → f.kind = 0x80#8 → f.payload.length = 6 →
     (1 < u8At f.payload 4 ∨ 1 < u8At f.payload 5 → exec .setNotices s = .next (s.released.replied f .badField [])) ∧
     ∀ (mode : AttnMode) (polarity : Polarity), u8At f.payload 4 = mode.code → u8At f.payload 5 = polarity.code →
       ∃ (enables : KindSet) (attn : Bool),
         (∀ n : Nat, n < 9 → enables.getLsbD n = ((s.notice.enables.getLsbD n || (u16At f.payload 0).testBit n) &&
           !(u16At f.payload 2).testBit n)) ∧
         (let answered : State := ({ s.released with
             notice := { s.notice with enables := enables, mode := mode, polarity := polarity } } : State).replied f .ok
               (encU16 enables.toNat ++ [BitVec.ofNat 8 mode.code, BitVec.ofNat 8 polarity.code])
         exec .setNotices s = .next { answered with link.attn := attn }) ∧
         (mode = .level → attn = true) ∧
         (mode = .pulse → (attn = true ↔ s.notice.mode = .pulse ∧ s.link.attn = true ∨ s.link.replies = [] ∨
           ∃ n : Nat, n < 9 ∧ s.notice.kinds.getLsbD n = true ∧ enables.getLsbD n = true ∧ s.notice.enables.getLsbD n = false))) ∧
  (∀ (s : State) (f : Frame), s.offers f → f.kind = 0x81#8 → f.payload.length = 2 → s.notice.records.length ≤ 16 →
     ∃ kinds : KindSet,
       exec .fetchNotices s = .next (({ s.released with
           notice := { s.notice with kinds := kinds, records := s.notice.records.drop 8 } } : State).replied f .ok
         (encU16 s.notice.kinds.toNat ++
           [BitVec.ofNat 8 (s.notice.records.length - 8), BitVec.ofNat 8 (min 8 s.notice.records.length)] ++
           ((s.notice.records.take 8).map fun r =>
             [r.tag.extractLsb' 0 8, r.tag.extractLsb' 8 8,
              match r.slot with
              | some k => BitVec.ofNat 8 k.val
              | none => 0xFF#8,
              match r.outcome with
              | .done => 0x00#8
              | .aborted => 0x01#8
              | .refusedGhost => 0x02#8
              | .noWaveform => 0x03#8,
              BitVec.ofNat 8 r.effective.code,
              BitVec.ofNat 8 ((if r.escalated then 1 else 0) + (if r.recovery then 2 else 0)),
              BitVec.ofNat 8 r.band.val, BitVec.ofNat 8 r.frames] ++ encTileRect r.hull).flatten)) ∧
       (∀ k : NoticeKind, k ≠ .done → (KindSet.mem k kinds = true ↔
         KindSet.mem k s.notice.kinds = true ∧ (u16At f.payload 0).testBit k.number = false)) ∧
       (KindSet.mem .done kinds = true ↔ KindSet.mem .done s.notice.kinds = true ∧ 8 < s.notice.records.length))

/-- WAIT_UPDATE answers at once where nothing carries the tag, LIMIT where the wait list is full, and otherwise joins the tail of
the wait list without a reply; it has five milliseconds for each unit of its time check, of which there are at least four. A wait
whose time is up ends TIMEOUT; a tag reported and carried by nothing any longer ends its waits OK, in the order of the list. An
ATTN pulse ends in an inactive line. That the first expired entry of the list ends first is the model's choice (log entry 9). -/
def Obligations.WaitsTakenAndEnded : Prop :=
  (∀ (s : State) (f : Frame), s.offers f → f.kind = 0x82#8 → f.payload.length = 4 →
     let waited := tagAt f.payload 0
     let carried := (∃ e ∈ s.sched.queue, e.tag = waited) ∨ ∃ (i : Fin 16) (sl : Slot), s.frame.slots[i] = some sl ∧ sl.tag = waited
     (¬ carried → exec .waitUpdate s = .next (s.released.replied f .ok (f.payload.take 2 ++ [0x00#8]))) ∧
     (carried → 4 ≤ s.notice.waits.length → exec .waitUpdate s = .next (s.released.replied f .limit [])) ∧
     (carried → s.notice.waits.length < 4 → exec .waitUpdate s = .next { s.released with
       notice.waits := s.notice.waits ++
         [{ requestTag := f.tag, waitedTag := waited, timeLeft := 5 * max 4 (u16At f.payload 2) }] })) ∧
  ((∀ (s : State) (before after : List WaitEntry) (w : WaitEntry), s.notice.waits = before ++ w :: after →
     (∀ v ∈ before, v.timeLeft ≠ 0) → w.timeLeft = 0 → exec .waitTimeCheckExpiry s =
       .next ({ s with notice := { s.notice with
         waits := before ++ after, ended := s.notice.ended ++ [{ entry := w, timedOut := true }] } } : State).serveWaits) ∧
   (∀ (s : State) (tags : List Tag),
     let gone := fun w : WaitEntry => decide (w.waitedTag ∈ tags ∧ s.carries w.waitedTag = false)
     s.endWaits tags = ({ s with notice := { s.notice with
       waits := s.notice.waits.filter fun w => !gone w,
       ended := s.notice.ended ++ (s.notice.waits.filter gone).map fun w => { entry := w, timedOut := false } } } :
         State).serveWaits) ∧
   ∀ s : State, s.notice.mode = .pulse → s.link.attn = true → exec .attnPulseEnd s = .next { s with link.attn := false })

/-- DONE is pending exactly while the completion list holds a record, and in mode LEVEL the ATTN line is active exactly when
a reply waits or an enabled kind is pending: every command keeps it so. -/
def Obligations.NoticesStaySound : Prop :=
  ∀ (c : Instr) (s t : State), s.noticesSound → exec c s = .next t → t.noticesSound
end

