-- ==== Sys2Proof/Laws/State.lean ====
section
/-! SUPPORT. What each shared operation leaves as it was: one lemma for each block of the state, and for each field of the
Notice Unit and of the Message Link where the operation writes only some of them. -/

namespace Sys2Proof.Machine

/-! ATTN and the pending kinds -/

@[simp] theorem State.drawAttn_pixel (s : State) (c : Bool) : (s.drawAttn c).pixel = s.pixel := rfl
@[simp] theorem State.drawAttn_wave (s : State) (c : Bool) : (s.drawAttn c).wave = s.wave := rfl
@[simp] theorem State.drawAttn_temp (s : State) (c : Bool) : (s.drawAttn c).temp = s.temp := rfl
@[simp] theorem State.drawAttn_sched (s : State) (c : Bool) : (s.drawAttn c).sched = s.sched := rfl
@[simp] theorem State.drawAttn_ghost (s : State) (c : Bool) : (s.drawAttn c).ghost = s.ghost := rfl
@[simp] theorem State.drawAttn_frame (s : State) (c : Bool) : (s.drawAttn c).frame = s.frame := rfl
@[simp] theorem State.drawAttn_rail (s : State) (c : Bool) : (s.drawAttn c).rail = s.rail := rfl
@[simp] theorem State.drawAttn_notice (s : State) (c : Bool) : (s.drawAttn c).notice = s.notice := rfl
@[simp] theorem State.drawAttn_pending (s : State) (c : Bool) : (s.drawAttn c).pending = s.pending := rfl
@[simp] theorem State.drawAttn_framing (s : State) (c : Bool) : (s.drawAttn c).link.framing = s.link.framing := rfl
@[simp] theorem State.drawAttn_frames (s : State) (c : Bool) : (s.drawAttn c).link.frames = s.link.frames := rfl
@[simp] theorem State.drawAttn_replies (s : State) (c : Bool) : (s.drawAttn c).link.replies = s.link.replies := rfl
@[simp] theorem State.drawAttn_hold (s : State) (c : Bool) : (s.drawAttn c).link.hold = s.link.hold := rfl
@[simp] theorem State.raise_pixel (k : NoticeKind) (s : State) : (s.raise k).pixel = s.pixel := rfl
@[simp] theorem State.raise_wave (k : NoticeKind) (s : State) : (s.raise k).wave = s.wave := rfl
@[simp] theorem State.raise_temp (k : NoticeKind) (s : State) : (s.raise k).temp = s.temp := rfl
@[simp] theorem State.raise_sched (k : NoticeKind) (s : State) : (s.raise k).sched = s.sched := rfl
@[simp] theorem State.raise_ghost (k : NoticeKind) (s : State) : (s.raise k).ghost = s.ghost := rfl
@[simp] theorem State.raise_frame (k : NoticeKind) (s : State) : (s.raise k).frame = s.frame := rfl
@[simp] theorem State.raise_rail (k : NoticeKind) (s : State) : (s.raise k).rail = s.rail := rfl
@[simp] theorem State.raise_pending (k : NoticeKind) (s : State) : (s.raise k).pending = s.pending := rfl
@[simp] theorem State.raise_enables (k : NoticeKind) (s : State) : (s.raise k).notice.enables = s.notice.enables := rfl
@[simp] theorem State.raise_mode (k : NoticeKind) (s : State) : (s.raise k).notice.mode = s.notice.mode := rfl
@[simp] theorem State.raise_polarity (k : NoticeKind) (s : State) : (s.raise k).notice.polarity = s.notice.polarity := rfl
@[simp] theorem State.raise_records (k : NoticeKind) (s : State) : (s.raise k).notice.records = s.notice.records := rfl
@[simp] theorem State.raise_waits (k : NoticeKind) (s : State) : (s.raise k).notice.waits = s.notice.waits := rfl
@[simp] theorem State.raise_ended (k : NoticeKind) (s : State) : (s.raise k).notice.ended = s.notice.ended := rfl
@[simp] theorem State.raise_framing (k : NoticeKind) (s : State) : (s.raise k).link.framing = s.link.framing := rfl
@[simp] theorem State.raise_frames (k : NoticeKind) (s : State) : (s.raise k).link.frames = s.link.frames := rfl
@[simp] theorem State.raise_replies (k : NoticeKind) (s : State) : (s.raise k).link.replies = s.link.replies := rfl
@[simp] theorem State.raise_hold (k : NoticeKind) (s : State) : (s.raise k).link.hold = s.link.hold := rfl
@[simp] theorem State.drop_pixel (S : KindSet) (s : State) : (s.drop S).pixel = s.pixel := rfl
@[simp] theorem State.drop_wave (S : KindSet) (s : State) : (s.drop S).wave = s.wave := rfl
@[simp] theorem State.drop_temp (S : KindSet) (s : State) : (s.drop S).temp = s.temp := rfl
@[simp] theorem State.drop_sched (S : KindSet) (s : State) : (s.drop S).sched = s.sched := rfl
@[simp] theorem State.drop_ghost (S : KindSet) (s : State) : (s.drop S).ghost = s.ghost := rfl
@[simp] theorem State.drop_frame (S : KindSet) (s : State) : (s.drop S).frame = s.frame := rfl
@[simp] theorem State.drop_rail (S : KindSet) (s : State) : (s.drop S).rail = s.rail := rfl
@[simp] theorem State.drop_pending (S : KindSet) (s : State) : (s.drop S).pending = s.pending := rfl
@[simp] theorem State.drop_enables (S : KindSet) (s : State) : (s.drop S).notice.enables = s.notice.enables := rfl
@[simp] theorem State.drop_mode (S : KindSet) (s : State) : (s.drop S).notice.mode = s.notice.mode := rfl
@[simp] theorem State.drop_polarity (S : KindSet) (s : State) : (s.drop S).notice.polarity = s.notice.polarity := rfl
@[simp] theorem State.drop_records (S : KindSet) (s : State) : (s.drop S).notice.records = s.notice.records := rfl
@[simp] theorem State.drop_waits (S : KindSet) (s : State) : (s.drop S).notice.waits = s.notice.waits := rfl
@[simp] theorem State.drop_ended (S : KindSet) (s : State) : (s.drop S).notice.ended = s.notice.ended := rfl
@[simp] theorem State.drop_framing (S : KindSet) (s : State) : (s.drop S).link.framing = s.link.framing := rfl
@[simp] theorem State.drop_frames (S : KindSet) (s : State) : (s.drop S).link.frames = s.link.frames := rfl
@[simp] theorem State.drop_replies (S : KindSet) (s : State) : (s.drop S).link.replies = s.link.replies := rfl
@[simp] theorem State.drop_hold (S : KindSet) (s : State) : (s.drop S).link.hold = s.link.hold := rfl

/-! The reply queue and the waits -/

@[simp] theorem State.pushReply_pixel (r : Reply) (s : State) : (s.pushReply r).pixel = s.pixel := rfl
@[simp] theorem State.pushReply_wave (r : Reply) (s : State) : (s.pushReply r).wave = s.wave := rfl
@[simp] theorem State.pushReply_temp (r : Reply) (s : State) : (s.pushReply r).temp = s.temp := rfl
@[simp] theorem State.pushReply_sched (r : Reply) (s : State) : (s.pushReply r).sched = s.sched := rfl
@[simp] theorem State.pushReply_ghost (r : Reply) (s : State) : (s.pushReply r).ghost = s.ghost := rfl
@[simp] theorem State.pushReply_frame (r : Reply) (s : State) : (s.pushReply r).frame = s.frame := rfl
@[simp] theorem State.pushReply_rail (r : Reply) (s : State) : (s.pushReply r).rail = s.rail := rfl
@[simp] theorem State.pushReply_notice (r : Reply) (s : State) : (s.pushReply r).notice = s.notice := rfl
@[simp] theorem State.pushReply_pending (r : Reply) (s : State) : (s.pushReply r).pending = s.pending := rfl
@[simp] theorem State.pushReply_framing (r : Reply) (s : State) : (s.pushReply r).link.framing = s.link.framing := rfl
@[simp] theorem State.pushReply_frames (r : Reply) (s : State) : (s.pushReply r).link.frames = s.link.frames := rfl
@[simp] theorem State.pushReply_hold (r : Reply) (s : State) : (s.pushReply r).link.hold = s.link.hold := rfl
@[simp] theorem State.popReply_pixel (s : State) : (s.popReply).pixel = s.pixel := rfl
@[simp] theorem State.popReply_wave (s : State) : (s.popReply).wave = s.wave := rfl
@[simp] theorem State.popReply_temp (s : State) : (s.popReply).temp = s.temp := rfl
@[simp] theorem State.popReply_sched (s : State) : (s.popReply).sched = s.sched := rfl
@[simp] theorem State.popReply_ghost (s : State) : (s.popReply).ghost = s.ghost := rfl
@[simp] theorem State.popReply_frame (s : State) : (s.popReply).frame = s.frame := rfl
@[simp] theorem State.popReply_rail (s : State) : (s.popReply).rail = s.rail := rfl
@[simp] theorem State.popReply_notice (s : State) : (s.popReply).notice = s.notice := rfl
@[simp] theorem State.popReply_pending (s : State) : (s.popReply).pending = s.pending := rfl
@[simp] theorem State.popReply_framing (s : State) : (s.popReply).link.framing = s.link.framing := rfl
@[simp] theorem State.popReply_frames (s : State) : (s.popReply).link.frames = s.link.frames := rfl
@[simp] theorem State.popReply_hold (s : State) : (s.popReply).link.hold = s.link.hold := rfl
@[simp] theorem State.serveList_pixel (es : List EndedWait) (s : State) : (State.serveList es s).pixel = s.pixel := by
  induction es generalizing s with
  | nil => rfl
  | cons e es ih => unfold State.serveList; split <;> simp [ih]
@[simp] theorem State.serveList_wave (es : List EndedWait) (s : State) : (State.serveList es s).wave = s.wave := by
  induction es generalizing s with
  | nil => rfl
  | cons e es ih => unfold State.serveList; split <;> simp [ih]
@[simp] theorem State.serveList_temp (es : List EndedWait) (s : State) : (State.serveList es s).temp = s.temp := by
  induction es generalizing s with
  | nil => rfl
  | cons e es ih => unfold State.serveList; split <;> simp [ih]
@[simp] theorem State.serveList_sched (es : List EndedWait) (s : State) : (State.serveList es s).sched = s.sched := by
  induction es generalizing s with
  | nil => rfl
  | cons e es ih => unfold State.serveList; split <;> simp [ih]
@[simp] theorem State.serveList_ghost (es : List EndedWait) (s : State) : (State.serveList es s).ghost = s.ghost := by
  induction es generalizing s with
  | nil => rfl
  | cons e es ih => unfold State.serveList; split <;> simp [ih]
@[simp] theorem State.serveList_frame (es : List EndedWait) (s : State) : (State.serveList es s).frame = s.frame := by
  induction es generalizing s with
  | nil => rfl
  | cons e es ih => unfold State.serveList; split <;> simp [ih]
@[simp] theorem State.serveList_rail (es : List EndedWait) (s : State) : (State.serveList es s).rail = s.rail := by
  induction es generalizing s with
  | nil => rfl
  | cons e es ih => unfold State.serveList; split <;> simp [ih]
@[simp] theorem State.serveList_pending (es : List EndedWait) (s : State) : (State.serveList es s).pending = s.pending := by
  induction es generalizing s with
  | nil => rfl
  | cons e es ih => unfold State.serveList; split <;> simp [ih]
@[simp] theorem State.serveList_kinds (es : List EndedWait) (s : State) : (State.serveList es s).notice.kinds = s.notice.kinds := by
  induction es generalizing s with
  | nil => rfl
  | cons e es ih => unfold State.serveList; split <;> simp [ih]
@[simp] theorem State.serveList_enables (es : List EndedWait) (s : State) : (State.serveList es s).notice.enables = s.notice.enables := by
  induction es generalizing s with
  | nil => rfl
  | cons e es ih => unfold State.serveList; split <;> simp [ih]
@[simp] theorem State.serveList_mode (es : List EndedWait) (s : State) : (State.serveList es s).notice.mode = s.notice.mode := by
  induction es generalizing s with
  | nil => rfl
  | cons e es ih => unfold State.serveList; split <;> simp [ih]
@[simp] theorem State.serveList_polarity (es : List EndedWait) (s : State) : (State.serveList es s).notice.polarity = s.notice.polarity := by
  induction es generalizing s with
  | nil => rfl
  | cons e es ih => unfold State.serveList; split <;> simp [ih]
@[simp] theorem State.serveList_records (es : List EndedWait) (s : State) : (State.serveList es s).notice.records = s.notice.records := by
  induction es generalizing s with
  | nil => rfl
  | cons e es ih => unfold State.serveList; split <;> simp [ih]
@[simp] theorem State.serveList_waits (es : List EndedWait) (s : State) : (State.serveList es s).notice.waits = s.notice.waits := by
  induction es generalizing s with
  | nil => rfl
  | cons e es ih => unfold State.serveList; split <;> simp [ih]
@[simp] theorem State.serveList_framing (es : List EndedWait) (s : State) : (State.serveList es s).link.framing = s.link.framing := by
  induction es generalizing s with
  | nil => rfl
  | cons e es ih => unfold State.serveList; split <;> simp [ih]
@[simp] theorem State.serveList_frames (es : List EndedWait) (s : State) : (State.serveList es s).link.frames = s.link.frames := by
  induction es generalizing s with
  | nil => rfl
  | cons e es ih => unfold State.serveList; split <;> simp [ih]
@[simp] theorem State.serveList_hold (es : List EndedWait) (s : State) : (State.serveList es s).link.hold = s.link.hold := by
  induction es generalizing s with
  | nil => rfl
  | cons e es ih => unfold State.serveList; split <;> simp [ih]
@[simp] theorem State.serveWaits_pixel (s : State) : (s.serveWaits).pixel = s.pixel := by simp [State.serveWaits]
@[simp] theorem State.serveWaits_wave (s : State) : (s.serveWaits).wave = s.wave := by simp [State.serveWaits]
@[simp] theorem State.serveWaits_temp (s : State) : (s.serveWaits).temp = s.temp := by simp [State.serveWaits]
@[simp] theorem State.serveWaits_sched (s : State) : (s.serveWaits).sched = s.sched := by simp [State.serveWaits]
@[simp] theorem State.serveWaits_ghost (s : State) : (s.serveWaits).ghost = s.ghost := by simp [State.serveWaits]
@[simp] theorem State.serveWaits_frame (s : State) : (s.serveWaits).frame = s.frame := by simp [State.serveWaits]
@[simp] theorem State.serveWaits_rail (s : State) : (s.serveWaits).rail = s.rail := by simp [State.serveWaits]
@[simp] theorem State.serveWaits_pending (s : State) : (s.serveWaits).pending = s.pending := by simp [State.serveWaits]
@[simp] theorem State.serveWaits_kinds (s : State) : (s.serveWaits).notice.kinds = s.notice.kinds := by simp [State.serveWaits]
@[simp] theorem State.serveWaits_enables (s : State) : (s.serveWaits).notice.enables = s.notice.enables := by simp [State.serveWaits]
@[simp] theorem State.serveWaits_mode (s : State) : (s.serveWaits).notice.mode = s.notice.mode := by simp [State.serveWaits]
@[simp] theorem State.serveWaits_polarity (s : State) : (s.serveWaits).notice.polarity = s.notice.polarity := by simp [State.serveWaits]
@[simp] theorem State.serveWaits_records (s : State) : (s.serveWaits).notice.records = s.notice.records := by simp [State.serveWaits]
@[simp] theorem State.serveWaits_waits (s : State) : (s.serveWaits).notice.waits = s.notice.waits := by simp [State.serveWaits]
@[simp] theorem State.serveWaits_framing (s : State) : (s.serveWaits).link.framing = s.link.framing := by simp [State.serveWaits]
@[simp] theorem State.serveWaits_frames (s : State) : (s.serveWaits).link.frames = s.link.frames := by simp [State.serveWaits]
@[simp] theorem State.serveWaits_hold (s : State) : (s.serveWaits).link.hold = s.link.hold := by simp [State.serveWaits]
@[simp] theorem State.receiptReply_pixel (r : Reply) (s : State) : (s.receiptReply r).pixel = s.pixel := by
  unfold State.receiptReply; dsimp only; split <;> simp
@[simp] theorem State.receiptReply_wave (r : Reply) (s : State) : (s.receiptReply r).wave = s.wave := by
  unfold State.receiptReply; dsimp only; split <;> simp
@[simp] theorem State.receiptReply_temp (r : Reply) (s : State) : (s.receiptReply r).temp = s.temp := by
  unfold State.receiptReply; dsimp only; split <;> simp
@[simp] theorem State.receiptReply_sched (r : Reply) (s : State) : (s.receiptReply r).sched = s.sched := by
  unfold State.receiptReply; dsimp only; split <;> simp
@[simp] theorem State.receiptReply_ghost (r : Reply) (s : State) : (s.receiptReply r).ghost = s.ghost := by
  unfold State.receiptReply; dsimp only; split <;> simp
@[simp] theorem State.receiptReply_frame (r : Reply) (s : State) : (s.receiptReply r).frame = s.frame := by
  unfold State.receiptReply; dsimp only; split <;> simp
@[simp] theorem State.receiptReply_rail (r : Reply) (s : State) : (s.receiptReply r).rail = s.rail := by
  unfold State.receiptReply; dsimp only; split <;> simp
@[simp] theorem State.receiptReply_pending (r : Reply) (s : State) : (s.receiptReply r).pending = s.pending := by
  unfold State.receiptReply; dsimp only; split <;> simp
@[simp] theorem State.receiptReply_kinds (r : Reply) (s : State) : (s.receiptReply r).notice.kinds = s.notice.kinds := by
  unfold State.receiptReply; dsimp only; split <;> simp
@[simp] theorem State.receiptReply_enables (r : Reply) (s : State) : (s.receiptReply r).notice.enables = s.notice.enables := by
  unfold State.receiptReply; dsimp only; split <;> simp
@[simp] theorem State.receiptReply_mode (r : Reply) (s : State) : (s.receiptReply r).notice.mode = s.notice.mode := by
  unfold State.receiptReply; dsimp only; split <;> simp
@[simp] theorem State.receiptReply_polarity (r : Reply) (s : State) : (s.receiptReply r).notice.polarity = s.notice.polarity := by
  unfold State.receiptReply; dsimp only; split <;> simp
@[simp] theorem State.receiptReply_records (r : Reply) (s : State) : (s.receiptReply r).notice.records = s.notice.records := by
  unfold State.receiptReply; dsimp only; split <;> simp
@[simp] theorem State.receiptReply_waits (r : Reply) (s : State) : (s.receiptReply r).notice.waits = s.notice.waits := by
  unfold State.receiptReply; dsimp only; split <;> simp
@[simp] theorem State.receiptReply_framing (r : Reply) (s : State) : (s.receiptReply r).link.framing = s.link.framing := by
  unfold State.receiptReply; dsimp only; split <;> simp
@[simp] theorem State.receiptReply_frames (r : Reply) (s : State) : (s.receiptReply r).link.frames = s.link.frames := by
  unfold State.receiptReply; dsimp only; split <;> simp
@[simp] theorem State.receiptReply_hold (r : Reply) (s : State) : (s.receiptReply r).link.hold = s.link.hold := by
  unfold State.receiptReply; dsimp only; split <;> simp
@[simp] theorem State.endWaits_pixel (ts : List Tag) (s : State) : (s.endWaits ts).pixel = s.pixel := by simp [State.endWaits]
@[simp] theorem State.endWaits_wave (ts : List Tag) (s : State) : (s.endWaits ts).wave = s.wave := by simp [State.endWaits]
@[simp] theorem State.endWaits_temp (ts : List Tag) (s : State) : (s.endWaits ts).temp = s.temp := by simp [State.endWaits]
@[simp] theorem State.endWaits_sched (ts : List Tag) (s : State) : (s.endWaits ts).sched = s.sched := by simp [State.endWaits]
@[simp] theorem State.endWaits_ghost (ts : List Tag) (s : State) : (s.endWaits ts).ghost = s.ghost := by simp [State.endWaits]
@[simp] theorem State.endWaits_frame (ts : List Tag) (s : State) : (s.endWaits ts).frame = s.frame := by simp [State.endWaits]
@[simp] theorem State.endWaits_rail (ts : List Tag) (s : State) : (s.endWaits ts).rail = s.rail := by simp [State.endWaits]
@[simp] theorem State.endWaits_pending (ts : List Tag) (s : State) : (s.endWaits ts).pending = s.pending := by simp [State.endWaits]
@[simp] theorem State.endWaits_kinds (ts : List Tag) (s : State) : (s.endWaits ts).notice.kinds = s.notice.kinds := by simp [State.endWaits]
@[simp] theorem State.endWaits_enables (ts : List Tag) (s : State) : (s.endWaits ts).notice.enables = s.notice.enables := by simp [State.endWaits]
@[simp] theorem State.endWaits_mode (ts : List Tag) (s : State) : (s.endWaits ts).notice.mode = s.notice.mode := by simp [State.endWaits]
@[simp] theorem State.endWaits_polarity (ts : List Tag) (s : State) : (s.endWaits ts).notice.polarity = s.notice.polarity := by simp [State.endWaits]
@[simp] theorem State.endWaits_records (ts : List Tag) (s : State) : (s.endWaits ts).notice.records = s.notice.records := by simp [State.endWaits]
@[simp] theorem State.endWaits_framing (ts : List Tag) (s : State) : (s.endWaits ts).link.framing = s.link.framing := by simp [State.endWaits]
@[simp] theorem State.endWaits_frames (ts : List Tag) (s : State) : (s.endWaits ts).link.frames = s.link.frames := by simp [State.endWaits]
@[simp] theorem State.endWaits_hold (ts : List Tag) (s : State) : (s.endWaits ts).link.hold = s.link.hold := by simp [State.endWaits]
@[simp] theorem State.joinRecord_pixel (r : CompletionRecord) (s : State) : (s.joinRecord r).pixel = s.pixel := by
  unfold State.joinRecord; dsimp only; split <;> split <;> simp
@[simp] theorem State.joinRecord_wave (r : CompletionRecord) (s : State) : (s.joinRecord r).wave = s.wave := by
  unfold State.joinRecord; dsimp only; split <;> split <;> simp
@[simp] theorem State.joinRecord_temp (r : CompletionRecord) (s : State) : (s.joinRecord r).temp = s.temp := by
  unfold State.joinRecord; dsimp only; split <;> split <;> simp
@[simp] theorem State.joinRecord_sched (r : CompletionRecord) (s : State) : (s.joinRecord r).sched = s.sched := by
  unfold State.joinRecord; dsimp only; split <;> split <;> simp
@[simp] theorem State.joinRecord_ghost (r : CompletionRecord) (s : State) : (s.joinRecord r).ghost = s.ghost := by
  unfold State.joinRecord; dsimp only; split <;> split <;> simp
@[simp] theorem State.joinRecord_frame (r : CompletionRecord) (s : State) : (s.joinRecord r).frame = s.frame := by
  unfold State.joinRecord; dsimp only; split <;> split <;> simp
@[simp] theorem State.joinRecord_rail (r : CompletionRecord) (s : State) : (s.joinRecord r).rail = s.rail := by
  unfold State.joinRecord; dsimp only; split <;> split <;> simp
@[simp] theorem State.joinRecord_pending (r : CompletionRecord) (s : State) : (s.joinRecord r).pending = s.pending := by
  unfold State.joinRecord; dsimp only; split <;> split <;> simp
@[simp] theorem State.joinRecord_enables (r : CompletionRecord) (s : State) : (s.joinRecord r).notice.enables = s.notice.enables := by
  unfold State.joinRecord; dsimp only; split <;> split <;> simp
@[simp] theorem State.joinRecord_mode (r : CompletionRecord) (s : State) : (s.joinRecord r).notice.mode = s.notice.mode := by
  unfold State.joinRecord; dsimp only; split <;> split <;> simp
@[simp] theorem State.joinRecord_polarity (r : CompletionRecord) (s : State) : (s.joinRecord r).notice.polarity = s.notice.polarity := by
  unfold State.joinRecord; dsimp only; split <;> split <;> simp
@[simp] theorem State.joinRecord_waits (r : CompletionRecord) (s : State) : (s.joinRecord r).notice.waits = s.notice.waits := by
  unfold State.joinRecord; dsimp only; split <;> split <;> simp
@[simp] theorem State.joinRecord_ended (r : CompletionRecord) (s : State) : (s.joinRecord r).notice.ended = s.notice.ended := by
  unfold State.joinRecord; dsimp only; split <;> split <;> simp
@[simp] theorem State.joinRecord_framing (r : CompletionRecord) (s : State) : (s.joinRecord r).link.framing = s.link.framing := by
  unfold State.joinRecord; dsimp only; split <;> split <;> simp
@[simp] theorem State.joinRecord_frames (r : CompletionRecord) (s : State) : (s.joinRecord r).link.frames = s.link.frames := by
  unfold State.joinRecord; dsimp only; split <;> split <;> simp
@[simp] theorem State.joinRecord_replies (r : CompletionRecord) (s : State) : (s.joinRecord r).link.replies = s.link.replies := by
  unfold State.joinRecord; dsimp only; split <;> split <;> simp
@[simp] theorem State.joinRecord_hold (r : CompletionRecord) (s : State) : (s.joinRecord r).link.hold = s.link.hold := by
  unfold State.joinRecord; dsimp only; split <;> split <;> simp
@[simp] theorem State.setFraming_pixel (fr : Framing) (s : State) : (s.setFraming fr).pixel = s.pixel := rfl
@[simp] theorem State.setFraming_wave (fr : Framing) (s : State) : (s.setFraming fr).wave = s.wave := rfl
@[simp] theorem State.setFraming_temp (fr : Framing) (s : State) : (s.setFraming fr).temp = s.temp := rfl
@[simp] theorem State.setFraming_sched (fr : Framing) (s : State) : (s.setFraming fr).sched = s.sched := rfl
@[simp] theorem State.setFraming_ghost (fr : Framing) (s : State) : (s.setFraming fr).ghost = s.ghost := rfl
@[simp] theorem State.setFraming_frame (fr : Framing) (s : State) : (s.setFraming fr).frame = s.frame := rfl
@[simp] theorem State.setFraming_rail (fr : Framing) (s : State) : (s.setFraming fr).rail = s.rail := rfl
@[simp] theorem State.setFraming_notice (fr : Framing) (s : State) : (s.setFraming fr).notice = s.notice := rfl
@[simp] theorem State.setFraming_pending (fr : Framing) (s : State) : (s.setFraming fr).pending = s.pending := rfl
@[simp] theorem State.setFraming_frames (fr : Framing) (s : State) : (s.setFraming fr).link.frames = s.link.frames := rfl
@[simp] theorem State.setFraming_replies (fr : Framing) (s : State) : (s.setFraming fr).link.replies = s.link.replies := rfl
@[simp] theorem State.setFraming_attn (fr : Framing) (s : State) : (s.setFraming fr).link.attn = s.link.attn := rfl
@[simp] theorem State.setFraming_framing (fr : Framing) (s : State) : (s.setFraming fr).link.framing = fr := rfl

/-! Tiles -/

@[simp] theorem State.mapTiles_pixel (s : State) (h : TileRect) (f : Nat → Nat → TileRecord → TileRecord) : (s.mapTiles h f).pixel = s.pixel := rfl
@[simp] theorem State.mapTiles_wave (s : State) (h : TileRect) (f : Nat → Nat → TileRecord → TileRecord) : (s.mapTiles h f).wave = s.wave := rfl
@[simp] theorem State.mapTiles_temp (s : State) (h : TileRect) (f : Nat → Nat → TileRecord → TileRecord) : (s.mapTiles h f).temp = s.temp := rfl
@[simp] theorem State.mapTiles_sched (s : State) (h : TileRect) (f : Nat → Nat → TileRecord → TileRecord) : (s.mapTiles h f).sched = s.sched := rfl
@[simp] theorem State.mapTiles_frame (s : State) (h : TileRect) (f : Nat → Nat → TileRecord → TileRecord) : (s.mapTiles h f).frame = s.frame := rfl
@[simp] theorem State.mapTiles_rail (s : State) (h : TileRect) (f : Nat → Nat → TileRecord → TileRecord) : (s.mapTiles h f).rail = s.rail := rfl
@[simp] theorem State.mapTiles_notice (s : State) (h : TileRect) (f : Nat → Nat → TileRecord → TileRecord) : (s.mapTiles h f).notice = s.notice := rfl
@[simp] theorem State.mapTiles_link (s : State) (h : TileRect) (f : Nat → Nat → TileRecord → TileRecord) : (s.mapTiles h f).link = s.link := rfl
@[simp] theorem State.mapTiles_pending (s : State) (h : TileRect) (f : Nat → Nat → TileRecord → TileRecord) : (s.mapTiles h f).pending = s.pending := rfl
@[simp] theorem State.releaseTiles_pixel (s : State) (h : TileRect) (c : Option Condition) : (s.releaseTiles h c).pixel = s.pixel := rfl
@[simp] theorem State.releaseTiles_wave (s : State) (h : TileRect) (c : Option Condition) : (s.releaseTiles h c).wave = s.wave := rfl
@[simp] theorem State.releaseTiles_temp (s : State) (h : TileRect) (c : Option Condition) : (s.releaseTiles h c).temp = s.temp := rfl
@[simp] theorem State.releaseTiles_sched (s : State) (h : TileRect) (c : Option Condition) : (s.releaseTiles h c).sched = s.sched := rfl
@[simp] theorem State.releaseTiles_frame (s : State) (h : TileRect) (c : Option Condition) : (s.releaseTiles h c).frame = s.frame := rfl
@[simp] theorem State.releaseTiles_rail (s : State) (h : TileRect) (c : Option Condition) : (s.releaseTiles h c).rail = s.rail := rfl
@[simp] theorem State.releaseTiles_notice (s : State) (h : TileRect) (c : Option Condition) : (s.releaseTiles h c).notice = s.notice := rfl
@[simp] theorem State.releaseTiles_link (s : State) (h : TileRect) (c : Option Condition) : (s.releaseTiles h c).link = s.link := rfl
@[simp] theorem State.releaseTiles_pending (s : State) (h : TileRect) (c : Option Condition) : (s.releaseTiles h c).pending = s.pending := rfl
@[simp] theorem State.mapTiles_policy (s : State) (h : TileRect) (f : Nat → Nat → TileRecord → TileRecord) : (s.mapTiles h f).ghost.policy = s.ghost.policy := rfl
@[simp] theorem State.releaseTiles_policy (s : State) (h : TileRect) (c : Option Condition) : (s.releaseTiles h c).ghost.policy = s.ghost.policy := rfl

/-! The Temperature Unit -/

@[simp] theorem State.failedSample_pixel (s : State) : (s.failedSample).pixel = s.pixel := by
  unfold State.failedSample; dsimp only; split <;> simp
@[simp] theorem State.failedSample_wave (s : State) : (s.failedSample).wave = s.wave := by
  unfold State.failedSample; dsimp only; split <;> simp
@[simp] theorem State.failedSample_sched (s : State) : (s.failedSample).sched = s.sched := by
  unfold State.failedSample; dsimp only; split <;> simp
@[simp] theorem State.failedSample_ghost (s : State) : (s.failedSample).ghost = s.ghost := by
  unfold State.failedSample; dsimp only; split <;> simp
@[simp] theorem State.failedSample_frame (s : State) : (s.failedSample).frame = s.frame := by
  unfold State.failedSample; dsimp only; split <;> simp
@[simp] theorem State.failedSample_rail (s : State) : (s.failedSample).rail = s.rail := by
  unfold State.failedSample; dsimp only; split <;> simp
@[simp] theorem State.failedSample_pending (s : State) : (s.failedSample).pending = s.pending := by
  unfold State.failedSample; dsimp only; split <;> simp
@[simp] theorem State.failedSample_enables (s : State) : (s.failedSample).notice.enables = s.notice.enables := by
  unfold State.failedSample; dsimp only; split <;> simp
@[simp] theorem State.failedSample_mode (s : State) : (s.failedSample).notice.mode = s.notice.mode := by
  unfold State.failedSample; dsimp only; split <;> simp
@[simp] theorem State.failedSample_polarity (s : State) : (s.failedSample).notice.polarity = s.notice.polarity := by
  unfold State.failedSample; dsimp only; split <;> simp
@[simp] theorem State.failedSample_records (s : State) : (s.failedSample).notice.records = s.notice.records := by
  unfold State.failedSample; dsimp only; split <;> simp
@[simp] theorem State.failedSample_waits (s : State) : (s.failedSample).notice.waits = s.notice.waits := by
  unfold State.failedSample; dsimp only; split <;> simp
@[simp] theorem State.failedSample_ended (s : State) : (s.failedSample).notice.ended = s.notice.ended := by
  unfold State.failedSample; dsimp only; split <;> simp
@[simp] theorem State.failedSample_framing (s : State) : (s.failedSample).link.framing = s.link.framing := by
  unfold State.failedSample; dsimp only; split <;> simp
@[simp] theorem State.failedSample_frames (s : State) : (s.failedSample).link.frames = s.link.frames := by
  unfold State.failedSample; dsimp only; split <;> simp
@[simp] theorem State.failedSample_replies (s : State) : (s.failedSample).link.replies = s.link.replies := by
  unfold State.failedSample; dsimp only; split <;> simp
@[simp] theorem State.failedSample_hold (s : State) : (s.failedSample).link.hold = s.link.hold := by
  unfold State.failedSample; dsimp only; split <;> simp
@[simp] theorem State.raiseTemp_pixel (t : Int) (s : State) : (s.raiseTemp t).pixel = s.pixel := rfl
@[simp] theorem State.raiseTemp_wave (t : Int) (s : State) : (s.raiseTemp t).wave = s.wave := rfl
@[simp] theorem State.raiseTemp_sched (t : Int) (s : State) : (s.raiseTemp t).sched = s.sched := rfl
@[simp] theorem State.raiseTemp_ghost (t : Int) (s : State) : (s.raiseTemp t).ghost = s.ghost := rfl
@[simp] theorem State.raiseTemp_frame (t : Int) (s : State) : (s.raiseTemp t).frame = s.frame := rfl
@[simp] theorem State.raiseTemp_rail (t : Int) (s : State) : (s.raiseTemp t).rail = s.rail := rfl
@[simp] theorem State.raiseTemp_pending (t : Int) (s : State) : (s.raiseTemp t).pending = s.pending := rfl
@[simp] theorem State.raiseTemp_enables (t : Int) (s : State) : (s.raiseTemp t).notice.enables = s.notice.enables := rfl
@[simp] theorem State.raiseTemp_mode (t : Int) (s : State) : (s.raiseTemp t).notice.mode = s.notice.mode := rfl
@[simp] theorem State.raiseTemp_polarity (t : Int) (s : State) : (s.raiseTemp t).notice.polarity = s.notice.polarity := rfl
@[simp] theorem State.raiseTemp_records (t : Int) (s : State) : (s.raiseTemp t).notice.records = s.notice.records := rfl
@[simp] theorem State.raiseTemp_waits (t : Int) (s : State) : (s.raiseTemp t).notice.waits = s.notice.waits := rfl
@[simp] theorem State.raiseTemp_ended (t : Int) (s : State) : (s.raiseTemp t).notice.ended = s.notice.ended := rfl
@[simp] theorem State.raiseTemp_framing (t : Int) (s : State) : (s.raiseTemp t).link.framing = s.link.framing := rfl
@[simp] theorem State.raiseTemp_frames (t : Int) (s : State) : (s.raiseTemp t).link.frames = s.link.frames := rfl
@[simp] theorem State.raiseTemp_replies (t : Int) (s : State) : (s.raiseTemp t).link.replies = s.link.replies := rfl
@[simp] theorem State.raiseTemp_hold (t : Int) (s : State) : (s.raiseTemp t).link.hold = s.link.hold := rfl
@[simp] theorem State.compare_pixel (t : Int) (i : Bool) (s : State) : (s.compare t i).pixel = s.pixel := by
  unfold State.compare; split <;> (try split) <;> (try split) <;> simp
@[simp] theorem State.compare_wave (t : Int) (i : Bool) (s : State) : (s.compare t i).wave = s.wave := by
  unfold State.compare; split <;> (try split) <;> (try split) <;> simp
@[simp] theorem State.compare_sched (t : Int) (i : Bool) (s : State) : (s.compare t i).sched = s.sched := by
  unfold State.compare; split <;> (try split) <;> (try split) <;> simp
@[simp] theorem State.compare_ghost (t : Int) (i : Bool) (s : State) : (s.compare t i).ghost = s.ghost := by
  unfold State.compare; split <;> (try split) <;> (try split) <;> simp
@[simp] theorem State.compare_frame (t : Int) (i : Bool) (s : State) : (s.compare t i).frame = s.frame := by
  unfold State.compare; split <;> (try split) <;> (try split) <;> simp
@[simp] theorem State.compare_rail (t : Int) (i : Bool) (s : State) : (s.compare t i).rail = s.rail := by
  unfold State.compare; split <;> (try split) <;> (try split) <;> simp
@[simp] theorem State.compare_pending (t : Int) (i : Bool) (s : State) : (s.compare t i).pending = s.pending := by
  unfold State.compare; split <;> (try split) <;> (try split) <;> simp
@[simp] theorem State.compare_enables (t : Int) (i : Bool) (s : State) : (s.compare t i).notice.enables = s.notice.enables := by
  unfold State.compare; split <;> (try split) <;> (try split) <;> simp
@[simp] theorem State.compare_mode (t : Int) (i : Bool) (s : State) : (s.compare t i).notice.mode = s.notice.mode := by
  unfold State.compare; split <;> (try split) <;> (try split) <;> simp
@[simp] theorem State.compare_polarity (t : Int) (i : Bool) (s : State) : (s.compare t i).notice.polarity = s.notice.polarity := by
  unfold State.compare; split <;> (try split) <;> (try split) <;> simp
@[simp] theorem State.compare_records (t : Int) (i : Bool) (s : State) : (s.compare t i).notice.records = s.notice.records := by
  unfold State.compare; split <;> (try split) <;> (try split) <;> simp
@[simp] theorem State.compare_waits (t : Int) (i : Bool) (s : State) : (s.compare t i).notice.waits = s.notice.waits := by
  unfold State.compare; split <;> (try split) <;> (try split) <;> simp
@[simp] theorem State.compare_ended (t : Int) (i : Bool) (s : State) : (s.compare t i).notice.ended = s.notice.ended := by
  unfold State.compare; split <;> (try split) <;> (try split) <;> simp
@[simp] theorem State.compare_framing (t : Int) (i : Bool) (s : State) : (s.compare t i).link.framing = s.link.framing := by
  unfold State.compare; split <;> (try split) <;> (try split) <;> simp
@[simp] theorem State.compare_frames (t : Int) (i : Bool) (s : State) : (s.compare t i).link.frames = s.link.frames := by
  unfold State.compare; split <;> (try split) <;> (try split) <;> simp
@[simp] theorem State.compare_replies (t : Int) (i : Bool) (s : State) : (s.compare t i).link.replies = s.link.replies := by
  unfold State.compare; split <;> (try split) <;> (try split) <;> simp
@[simp] theorem State.compare_hold (t : Int) (i : Bool) (s : State) : (s.compare t i).link.hold = s.link.hold := by
  unfold State.compare; split <;> (try split) <;> (try split) <;> simp
@[simp] theorem State.validSample_pixel (t : Int) (s : State) : (s.validSample t).pixel = s.pixel := by simp [State.validSample]
@[simp] theorem State.validSample_wave (t : Int) (s : State) : (s.validSample t).wave = s.wave := by simp [State.validSample]
@[simp] theorem State.validSample_sched (t : Int) (s : State) : (s.validSample t).sched = s.sched := by simp [State.validSample]
@[simp] theorem State.validSample_ghost (t : Int) (s : State) : (s.validSample t).ghost = s.ghost := by simp [State.validSample]
@[simp] theorem State.validSample_frame (t : Int) (s : State) : (s.validSample t).frame = s.frame := by simp [State.validSample]
@[simp] theorem State.validSample_rail (t : Int) (s : State) : (s.validSample t).rail = s.rail := by simp [State.validSample]
@[simp] theorem State.validSample_pending (t : Int) (s : State) : (s.validSample t).pending = s.pending := by simp [State.validSample]
@[simp] theorem State.validSample_enables (t : Int) (s : State) : (s.validSample t).notice.enables = s.notice.enables := by simp [State.validSample]
@[simp] theorem State.validSample_mode (t : Int) (s : State) : (s.validSample t).notice.mode = s.notice.mode := by simp [State.validSample]
@[simp] theorem State.validSample_polarity (t : Int) (s : State) : (s.validSample t).notice.polarity = s.notice.polarity := by simp [State.validSample]
@[simp] theorem State.validSample_records (t : Int) (s : State) : (s.validSample t).notice.records = s.notice.records := by simp [State.validSample]
@[simp] theorem State.validSample_waits (t : Int) (s : State) : (s.validSample t).notice.waits = s.notice.waits := by simp [State.validSample]
@[simp] theorem State.validSample_ended (t : Int) (s : State) : (s.validSample t).notice.ended = s.notice.ended := by simp [State.validSample]
@[simp] theorem State.validSample_framing (t : Int) (s : State) : (s.validSample t).link.framing = s.link.framing := by simp [State.validSample]
@[simp] theorem State.validSample_frames (t : Int) (s : State) : (s.validSample t).link.frames = s.link.frames := by simp [State.validSample]
@[simp] theorem State.validSample_replies (t : Int) (s : State) : (s.validSample t).link.replies = s.link.replies := by simp [State.validSample]
@[simp] theorem State.validSample_hold (t : Int) (s : State) : (s.validSample t).link.hold = s.link.hold := by simp [State.validSample]

/-! The Waveform Store -/

@[simp] theorem State.installHeld_pixel (fs : List Slot) (s : State) : (s.installHeld fs).pixel = s.pixel := by
  unfold State.installHeld; split <;> (try split) <;> simp
@[simp] theorem State.installHeld_temp (fs : List Slot) (s : State) : (s.installHeld fs).temp = s.temp := by
  unfold State.installHeld; split <;> (try split) <;> simp
@[simp] theorem State.installHeld_sched (fs : List Slot) (s : State) : (s.installHeld fs).sched = s.sched := by
  unfold State.installHeld; split <;> (try split) <;> simp
@[simp] theorem State.installHeld_ghost (fs : List Slot) (s : State) : (s.installHeld fs).ghost = s.ghost := by
  unfold State.installHeld; split <;> (try split) <;> simp
@[simp] theorem State.installHeld_frame (fs : List Slot) (s : State) : (s.installHeld fs).frame = s.frame := by
  unfold State.installHeld; split <;> (try split) <;> simp
@[simp] theorem State.installHeld_rail (fs : List Slot) (s : State) : (s.installHeld fs).rail = s.rail := by
  unfold State.installHeld; split <;> (try split) <;> simp
@[simp] theorem State.installHeld_pending (fs : List Slot) (s : State) : (s.installHeld fs).pending = s.pending := by
  unfold State.installHeld; split <;> (try split) <;> simp
@[simp] theorem State.installHeld_enables (fs : List Slot) (s : State) : (s.installHeld fs).notice.enables = s.notice.enables := by
  unfold State.installHeld; split <;> (try split) <;> simp
@[simp] theorem State.installHeld_mode (fs : List Slot) (s : State) : (s.installHeld fs).notice.mode = s.notice.mode := by
  unfold State.installHeld; split <;> (try split) <;> simp
@[simp] theorem State.installHeld_polarity (fs : List Slot) (s : State) : (s.installHeld fs).notice.polarity = s.notice.polarity := by
  unfold State.installHeld; split <;> (try split) <;> simp
@[simp] theorem State.installHeld_records (fs : List Slot) (s : State) : (s.installHeld fs).notice.records = s.notice.records := by
  unfold State.installHeld; split <;> (try split) <;> simp
@[simp] theorem State.installHeld_waits (fs : List Slot) (s : State) : (s.installHeld fs).notice.waits = s.notice.waits := by
  unfold State.installHeld; split <;> (try split) <;> simp
@[simp] theorem State.installHeld_ended (fs : List Slot) (s : State) : (s.installHeld fs).notice.ended = s.notice.ended := by
  unfold State.installHeld; split <;> (try split) <;> simp
@[simp] theorem State.installHeld_framing (fs : List Slot) (s : State) : (s.installHeld fs).link.framing = s.link.framing := by
  unfold State.installHeld; split <;> (try split) <;> simp
@[simp] theorem State.installHeld_frames (fs : List Slot) (s : State) : (s.installHeld fs).link.frames = s.link.frames := by
  unfold State.installHeld; split <;> (try split) <;> simp
@[simp] theorem State.installHeld_replies (fs : List Slot) (s : State) : (s.installHeld fs).link.replies = s.link.replies := by
  unfold State.installHeld; split <;> (try split) <;> simp
@[simp] theorem State.installHeld_hold (fs : List Slot) (s : State) : (s.installHeld fs).link.hold = s.link.hold := by
  unfold State.installHeld; split <;> (try split) <;> simp
@[simp] theorem State.installHeld_staging (fs : List Slot) (s : State) : (s.installHeld fs).wave.staging = s.wave.staging := by
  unfold State.installHeld; split <;> (try split) <;> simp [WaveformStore.putSet]

/-! Rails and frames -/

@[simp] theorem State.enterRising_pixel (s : State) : (s.enterRising).pixel = s.pixel := rfl
@[simp] theorem State.enterRising_wave (s : State) : (s.enterRising).wave = s.wave := rfl
@[simp] theorem State.enterRising_temp (s : State) : (s.enterRising).temp = s.temp := rfl
@[simp] theorem State.enterRising_sched (s : State) : (s.enterRising).sched = s.sched := rfl
@[simp] theorem State.enterRising_ghost (s : State) : (s.enterRising).ghost = s.ghost := rfl
@[simp] theorem State.enterRising_frame (s : State) : (s.enterRising).frame = s.frame := rfl
@[simp] theorem State.enterRising_notice (s : State) : (s.enterRising).notice = s.notice := rfl
@[simp] theorem State.enterRising_link (s : State) : (s.enterRising).link = s.link := rfl
@[simp] theorem State.enterRising_pending (s : State) : (s.enterRising).pending = s.pending := rfl
@[simp] theorem State.enterFalling_pixel (s : State) : (s.enterFalling).pixel = s.pixel := rfl
@[simp] theorem State.enterFalling_wave (s : State) : (s.enterFalling).wave = s.wave := rfl
@[simp] theorem State.enterFalling_temp (s : State) : (s.enterFalling).temp = s.temp := rfl
@[simp] theorem State.enterFalling_sched (s : State) : (s.enterFalling).sched = s.sched := rfl
@[simp] theorem State.enterFalling_ghost (s : State) : (s.enterFalling).ghost = s.ghost := rfl
@[simp] theorem State.enterFalling_notice (s : State) : (s.enterFalling).notice = s.notice := rfl
@[simp] theorem State.enterFalling_link (s : State) : (s.enterFalling).link = s.link := rfl
@[simp] theorem State.enterFalling_pending (s : State) : (s.enterFalling).pending = s.pending := rfl
@[simp] theorem State.enterOn_pixel (s : State) : (s.enterOn).pixel = s.pixel := rfl
@[simp] theorem State.enterOn_wave (s : State) : (s.enterOn).wave = s.wave := rfl
@[simp] theorem State.enterOn_sched (s : State) : (s.enterOn).sched = s.sched := rfl
@[simp] theorem State.enterOn_ghost (s : State) : (s.enterOn).ghost = s.ghost := rfl
@[simp] theorem State.enterOn_notice (s : State) : (s.enterOn).notice = s.notice := rfl
@[simp] theorem State.enterOn_link (s : State) : (s.enterOn).link = s.link := rfl
@[simp] theorem State.enterOn_pending (s : State) : (s.enterOn).pending = s.pending := rfl
@[simp] theorem State.concludeStart_pixel (s : State) : (s.concludeStart).pixel = s.pixel := by
  unfold State.concludeStart; dsimp only; split <;> simp
@[simp] theorem State.concludeStart_wave (s : State) : (s.concludeStart).wave = s.wave := by
  unfold State.concludeStart; dsimp only; split <;> simp
@[simp] theorem State.concludeStart_temp (s : State) : (s.concludeStart).temp = s.temp := by
  unfold State.concludeStart; dsimp only; split <;> simp
@[simp] theorem State.concludeStart_sched (s : State) : (s.concludeStart).sched = s.sched := by
  unfold State.concludeStart; dsimp only; split <;> simp
@[simp] theorem State.concludeStart_ghost (s : State) : (s.concludeStart).ghost = s.ghost := by
  unfold State.concludeStart; dsimp only; split <;> simp
@[simp] theorem State.concludeStart_notice (s : State) : (s.concludeStart).notice = s.notice := by
  unfold State.concludeStart; dsimp only; split <;> simp
@[simp] theorem State.concludeStart_link (s : State) : (s.concludeStart).link = s.link := by
  unfold State.concludeStart; dsimp only; split <;> simp
@[simp] theorem State.concludeStart_pending (s : State) : (s.concludeStart).pending = s.pending := by
  unfold State.concludeStart; dsimp only; split <;> simp
@[simp] theorem State.settlePass_pixel (s : State) : (s.settlePass).pixel = s.pixel := by
  unfold State.settlePass; split <;> (try split) <;> simp
@[simp] theorem State.settlePass_wave (s : State) : (s.settlePass).wave = s.wave := by
  unfold State.settlePass; split <;> (try split) <;> simp
@[simp] theorem State.settlePass_temp (s : State) : (s.settlePass).temp = s.temp := by
  unfold State.settlePass; split <;> (try split) <;> simp
@[simp] theorem State.settlePass_sched (s : State) : (s.settlePass).sched = s.sched := by
  unfold State.settlePass; split <;> (try split) <;> simp
@[simp] theorem State.settlePass_ghost (s : State) : (s.settlePass).ghost = s.ghost := by
  unfold State.settlePass; split <;> (try split) <;> simp
@[simp] theorem State.settlePass_notice (s : State) : (s.settlePass).notice = s.notice := by
  unfold State.settlePass; split <;> (try split) <;> simp
@[simp] theorem State.settlePass_link (s : State) : (s.settlePass).link = s.link := by
  unfold State.settlePass; split <;> (try split) <;> simp
@[simp] theorem State.settlePass_pending (s : State) : (s.settlePass).pending = s.pending := by
  unfold State.settlePass; split <;> (try split) <;> simp
@[simp] theorem State.concludeStart_slots (s : State) : (s.concludeStart).frame.slots = s.frame.slots := by
  unfold State.concludeStart State.enterFalling; dsimp only; split <;> rfl
@[simp] theorem State.concludeStart_admissions (s : State) : (s.concludeStart).frame.admissions = s.frame.admissions := by
  unfold State.concludeStart State.enterFalling; dsimp only; split <;> rfl
@[simp] theorem State.concludeStart_period (s : State) : (s.concludeStart).frame.period = s.frame.period := by
  unfold State.concludeStart State.enterFalling; dsimp only; split <;> rfl
@[simp] theorem State.concludeStart_counter (s : State) : (s.concludeStart).frame.counter = s.frame.counter := by
  unfold State.concludeStart State.enterFalling; dsimp only; split <;> rfl
@[simp] theorem State.settlePass_slots (s : State) : (s.settlePass).frame.slots = s.frame.slots := by
  unfold State.settlePass; split <;> (try split) <;> simp
@[simp] theorem State.settlePass_admissions (s : State) : (s.settlePass).frame.admissions = s.frame.admissions := by
  unfold State.settlePass; split <;> (try split) <;> simp
@[simp] theorem State.settlePass_period (s : State) : (s.settlePass).frame.period = s.frame.period := by
  unfold State.settlePass; split <;> (try split) <;> simp
@[simp] theorem State.settlePass_counter (s : State) : (s.settlePass).frame.counter = s.frame.counter := by
  unfold State.settlePass; split <;> (try split) <;> simp
@[simp] theorem State.finishSlot_wave (s : State) (i : Fin 16) (sl : Slot) (o : UpdateOutcome) (n : Nat) : (s.finishSlot i sl o n).wave = s.wave := by
  simp [State.finishSlot]
@[simp] theorem State.finishSlot_temp (s : State) (i : Fin 16) (sl : Slot) (o : UpdateOutcome) (n : Nat) : (s.finishSlot i sl o n).temp = s.temp := by
  simp [State.finishSlot]
@[simp] theorem State.finishSlot_sched (s : State) (i : Fin 16) (sl : Slot) (o : UpdateOutcome) (n : Nat) : (s.finishSlot i sl o n).sched = s.sched := by
  simp [State.finishSlot]
@[simp] theorem State.finishSlot_rail (s : State) (i : Fin 16) (sl : Slot) (o : UpdateOutcome) (n : Nat) : (s.finishSlot i sl o n).rail = s.rail := by
  simp [State.finishSlot]
@[simp] theorem State.finishSlot_pending (s : State) (i : Fin 16) (sl : Slot) (o : UpdateOutcome) (n : Nat) : (s.finishSlot i sl o n).pending = s.pending := by
  simp [State.finishSlot]
@[simp] theorem State.finishSlot_enables (s : State) (i : Fin 16) (sl : Slot) (o : UpdateOutcome) (n : Nat) : (s.finishSlot i sl o n).notice.enables = s.notice.enables := by
  simp [State.finishSlot]
@[simp] theorem State.finishSlot_mode (s : State) (i : Fin 16) (sl : Slot) (o : UpdateOutcome) (n : Nat) : (s.finishSlot i sl o n).notice.mode = s.notice.mode := by
  simp [State.finishSlot]
@[simp] theorem State.finishSlot_polarity (s : State) (i : Fin 16) (sl : Slot) (o : UpdateOutcome) (n : Nat) : (s.finishSlot i sl o n).notice.polarity = s.notice.polarity := by
  simp [State.finishSlot]
@[simp] theorem State.finishSlot_waits (s : State) (i : Fin 16) (sl : Slot) (o : UpdateOutcome) (n : Nat) : (s.finishSlot i sl o n).notice.waits = s.notice.waits := by
  simp [State.finishSlot]
@[simp] theorem State.finishSlot_ended (s : State) (i : Fin 16) (sl : Slot) (o : UpdateOutcome) (n : Nat) : (s.finishSlot i sl o n).notice.ended = s.notice.ended := by
  simp [State.finishSlot]
@[simp] theorem State.finishSlot_framing (s : State) (i : Fin 16) (sl : Slot) (o : UpdateOutcome) (n : Nat) : (s.finishSlot i sl o n).link.framing = s.link.framing := by
  simp [State.finishSlot]
@[simp] theorem State.finishSlot_frames (s : State) (i : Fin 16) (sl : Slot) (o : UpdateOutcome) (n : Nat) : (s.finishSlot i sl o n).link.frames = s.link.frames := by
  simp [State.finishSlot]
@[simp] theorem State.finishSlot_replies (s : State) (i : Fin 16) (sl : Slot) (o : UpdateOutcome) (n : Nat) : (s.finishSlot i sl o n).link.replies = s.link.replies := by
  simp [State.finishSlot]
@[simp] theorem State.finishSlot_hold (s : State) (i : Fin 16) (sl : Slot) (o : UpdateOutcome) (n : Nat) : (s.finishSlot i sl o n).link.hold = s.link.hold := by
  simp [State.finishSlot]
@[simp] theorem State.advanceSlot_wave (s : State) (i : Fin 16) : (s.advanceSlot i).wave = s.wave := by
  unfold State.advanceSlot; split <;> (try split) <;> (try split) <;> simp
@[simp] theorem State.advanceSlot_temp (s : State) (i : Fin 16) : (s.advanceSlot i).temp = s.temp := by
  unfold State.advanceSlot; split <;> (try split) <;> (try split) <;> simp
@[simp] theorem State.advanceSlot_sched (s : State) (i : Fin 16) : (s.advanceSlot i).sched = s.sched := by
  unfold State.advanceSlot; split <;> (try split) <;> (try split) <;> simp
@[simp] theorem State.advanceSlot_rail (s : State) (i : Fin 16) : (s.advanceSlot i).rail = s.rail := by
  unfold State.advanceSlot; split <;> (try split) <;> (try split) <;> simp
@[simp] theorem State.advanceSlot_pending (s : State) (i : Fin 16) : (s.advanceSlot i).pending = s.pending := by
  unfold State.advanceSlot; split <;> (try split) <;> (try split) <;> simp
@[simp] theorem State.advanceSlot_enables (s : State) (i : Fin 16) : (s.advanceSlot i).notice.enables = s.notice.enables := by
  unfold State.advanceSlot; split <;> (try split) <;> (try split) <;> simp
@[simp] theorem State.advanceSlot_mode (s : State) (i : Fin 16) : (s.advanceSlot i).notice.mode = s.notice.mode := by
  unfold State.advanceSlot; split <;> (try split) <;> (try split) <;> simp
@[simp] theorem State.advanceSlot_polarity (s : State) (i : Fin 16) : (s.advanceSlot i).notice.polarity = s.notice.polarity := by
  unfold State.advanceSlot; split <;> (try split) <;> (try split) <;> simp
@[simp] theorem State.advanceSlot_waits (s : State) (i : Fin 16) : (s.advanceSlot i).notice.waits = s.notice.waits := by
  unfold State.advanceSlot; split <;> (try split) <;> (try split) <;> simp
@[simp] theorem State.advanceSlot_ended (s : State) (i : Fin 16) : (s.advanceSlot i).notice.ended = s.notice.ended := by
  unfold State.advanceSlot; split <;> (try split) <;> (try split) <;> simp
@[simp] theorem State.advanceSlot_framing (s : State) (i : Fin 16) : (s.advanceSlot i).link.framing = s.link.framing := by
  unfold State.advanceSlot; split <;> (try split) <;> (try split) <;> simp
@[simp] theorem State.advanceSlot_frames (s : State) (i : Fin 16) : (s.advanceSlot i).link.frames = s.link.frames := by
  unfold State.advanceSlot; split <;> (try split) <;> (try split) <;> simp
@[simp] theorem State.advanceSlot_replies (s : State) (i : Fin 16) : (s.advanceSlot i).link.replies = s.link.replies := by
  unfold State.advanceSlot; split <;> (try split) <;> (try split) <;> simp
@[simp] theorem State.advanceSlot_hold (s : State) (i : Fin 16) : (s.advanceSlot i).link.hold = s.link.hold := by
  unfold State.advanceSlot; split <;> (try split) <;> (try split) <;> simp
@[simp] theorem State.abortSlot_wave (s : State) (i : Fin 16) : (s.abortSlot i).wave = s.wave := by
  unfold State.abortSlot; split <;> simp
@[simp] theorem State.abortSlot_temp (s : State) (i : Fin 16) : (s.abortSlot i).temp = s.temp := by
  unfold State.abortSlot; split <;> simp
@[simp] theorem State.abortSlot_sched (s : State) (i : Fin 16) : (s.abortSlot i).sched = s.sched := by
  unfold State.abortSlot; split <;> simp
@[simp] theorem State.abortSlot_rail (s : State) (i : Fin 16) : (s.abortSlot i).rail = s.rail := by
  unfold State.abortSlot; split <;> simp
@[simp] theorem State.abortSlot_pending (s : State) (i : Fin 16) : (s.abortSlot i).pending = s.pending := by
  unfold State.abortSlot; split <;> simp
@[simp] theorem State.abortSlot_enables (s : State) (i : Fin 16) : (s.abortSlot i).notice.enables = s.notice.enables := by
  unfold State.abortSlot; split <;> simp
@[simp] theorem State.abortSlot_mode (s : State) (i : Fin 16) : (s.abortSlot i).notice.mode = s.notice.mode := by
  unfold State.abortSlot; split <;> simp
@[simp] theorem State.abortSlot_polarity (s : State) (i : Fin 16) : (s.abortSlot i).notice.polarity = s.notice.polarity := by
  unfold State.abortSlot; split <;> simp
@[simp] theorem State.abortSlot_waits (s : State) (i : Fin 16) : (s.abortSlot i).notice.waits = s.notice.waits := by
  unfold State.abortSlot; split <;> simp
@[simp] theorem State.abortSlot_ended (s : State) (i : Fin 16) : (s.abortSlot i).notice.ended = s.notice.ended := by
  unfold State.abortSlot; split <;> simp
@[simp] theorem State.abortSlot_framing (s : State) (i : Fin 16) : (s.abortSlot i).link.framing = s.link.framing := by
  unfold State.abortSlot; split <;> simp
@[simp] theorem State.abortSlot_frames (s : State) (i : Fin 16) : (s.abortSlot i).link.frames = s.link.frames := by
  unfold State.abortSlot; split <;> simp
@[simp] theorem State.abortSlot_replies (s : State) (i : Fin 16) : (s.abortSlot i).link.replies = s.link.replies := by
  unfold State.abortSlot; split <;> simp
@[simp] theorem State.abortSlot_hold (s : State) (i : Fin 16) : (s.abortSlot i).link.hold = s.link.hold := by
  unfold State.abortSlot; split <;> simp
@[simp] theorem State.foldl_advanceSlot_wave (is : List (Fin 16)) (s : State) : (is.foldl State.advanceSlot s).wave = s.wave := by
  induction is generalizing s with
  | nil => rfl
  | cons i is ih => simp [ih]
@[simp] theorem State.foldl_advanceSlot_temp (is : List (Fin 16)) (s : State) : (is.foldl State.advanceSlot s).temp = s.temp := by
  induction is generalizing s with
  | nil => rfl
  | cons i is ih => simp [ih]
@[simp] theorem State.foldl_advanceSlot_sched (is : List (Fin 16)) (s : State) : (is.foldl State.advanceSlot s).sched = s.sched := by
  induction is generalizing s with
  | nil => rfl
  | cons i is ih => simp [ih]
@[simp] theorem State.foldl_advanceSlot_rail (is : List (Fin 16)) (s : State) : (is.foldl State.advanceSlot s).rail = s.rail := by
  induction is generalizing s with
  | nil => rfl
  | cons i is ih => simp [ih]
@[simp] theorem State.foldl_advanceSlot_pending (is : List (Fin 16)) (s : State) : (is.foldl State.advanceSlot s).pending = s.pending := by
  induction is generalizing s with
  | nil => rfl
  | cons i is ih => simp [ih]
@[simp] theorem State.foldl_advanceSlot_enables (is : List (Fin 16)) (s : State) : (is.foldl State.advanceSlot s).notice.enables = s.notice.enables := by
  induction is generalizing s with
  | nil => rfl
  | cons i is ih => simp [ih]
@[simp] theorem State.foldl_advanceSlot_mode (is : List (Fin 16)) (s : State) : (is.foldl State.advanceSlot s).notice.mode = s.notice.mode := by
  induction is generalizing s with
  | nil => rfl
  | cons i is ih => simp [ih]
@[simp] theorem State.foldl_advanceSlot_polarity (is : List (Fin 16)) (s : State) : (is.foldl State.advanceSlot s).notice.polarity = s.notice.polarity := by
  induction is generalizing s with
  | nil => rfl
  | cons i is ih => simp [ih]
@[simp] theorem State.foldl_advanceSlot_waits (is : List (Fin 16)) (s : State) : (is.foldl State.advanceSlot s).notice.waits = s.notice.waits := by
  induction is generalizing s with
  | nil => rfl
  | cons i is ih => simp [ih]
@[simp] theorem State.foldl_advanceSlot_ended (is : List (Fin 16)) (s : State) : (is.foldl State.advanceSlot s).notice.ended = s.notice.ended := by
  induction is generalizing s with
  | nil => rfl
  | cons i is ih => simp [ih]
@[simp] theorem State.foldl_advanceSlot_framing (is : List (Fin 16)) (s : State) : (is.foldl State.advanceSlot s).link.framing = s.link.framing := by
  induction is generalizing s with
  | nil => rfl
  | cons i is ih => simp [ih]
@[simp] theorem State.foldl_advanceSlot_frames (is : List (Fin 16)) (s : State) : (is.foldl State.advanceSlot s).link.frames = s.link.frames := by
  induction is generalizing s with
  | nil => rfl
  | cons i is ih => simp [ih]
@[simp] theorem State.foldl_advanceSlot_replies (is : List (Fin 16)) (s : State) : (is.foldl State.advanceSlot s).link.replies = s.link.replies := by
  induction is generalizing s with
  | nil => rfl
  | cons i is ih => simp [ih]
@[simp] theorem State.foldl_advanceSlot_hold (is : List (Fin 16)) (s : State) : (is.foldl State.advanceSlot s).link.hold = s.link.hold := by
  induction is generalizing s with
  | nil => rfl
  | cons i is ih => simp [ih]
@[simp] theorem State.foldl_abortSlot_wave (is : List (Fin 16)) (s : State) : (is.foldl State.abortSlot s).wave = s.wave := by
  induction is generalizing s with
  | nil => rfl
  | cons i is ih => simp [ih]
@[simp] theorem State.foldl_abortSlot_temp (is : List (Fin 16)) (s : State) : (is.foldl State.abortSlot s).temp = s.temp := by
  induction is generalizing s with
  | nil => rfl
  | cons i is ih => simp [ih]
@[simp] theorem State.foldl_abortSlot_sched (is : List (Fin 16)) (s : State) : (is.foldl State.abortSlot s).sched = s.sched := by
  induction is generalizing s with
  | nil => rfl
  | cons i is ih => simp [ih]
@[simp] theorem State.foldl_abortSlot_rail (is : List (Fin 16)) (s : State) : (is.foldl State.abortSlot s).rail = s.rail := by
  induction is generalizing s with
  | nil => rfl
  | cons i is ih => simp [ih]
@[simp] theorem State.foldl_abortSlot_pending (is : List (Fin 16)) (s : State) : (is.foldl State.abortSlot s).pending = s.pending := by
  induction is generalizing s with
  | nil => rfl
  | cons i is ih => simp [ih]
@[simp] theorem State.foldl_abortSlot_enables (is : List (Fin 16)) (s : State) : (is.foldl State.abortSlot s).notice.enables = s.notice.enables := by
  induction is generalizing s with
  | nil => rfl
  | cons i is ih => simp [ih]
@[simp] theorem State.foldl_abortSlot_mode (is : List (Fin 16)) (s : State) : (is.foldl State.abortSlot s).notice.mode = s.notice.mode := by
  induction is generalizing s with
  | nil => rfl
  | cons i is ih => simp [ih]
@[simp] theorem State.foldl_abortSlot_polarity (is : List (Fin 16)) (s : State) : (is.foldl State.abortSlot s).notice.polarity = s.notice.polarity := by
  induction is generalizing s with
  | nil => rfl
  | cons i is ih => simp [ih]
@[simp] theorem State.foldl_abortSlot_waits (is : List (Fin 16)) (s : State) : (is.foldl State.abortSlot s).notice.waits = s.notice.waits := by
  induction is generalizing s with
  | nil => rfl
  | cons i is ih => simp [ih]
@[simp] theorem State.foldl_abortSlot_ended (is : List (Fin 16)) (s : State) : (is.foldl State.abortSlot s).notice.ended = s.notice.ended := by
  induction is generalizing s with
  | nil => rfl
  | cons i is ih => simp [ih]
@[simp] theorem State.foldl_abortSlot_framing (is : List (Fin 16)) (s : State) : (is.foldl State.abortSlot s).link.framing = s.link.framing := by
  induction is generalizing s with
  | nil => rfl
  | cons i is ih => simp [ih]
@[simp] theorem State.foldl_abortSlot_frames (is : List (Fin 16)) (s : State) : (is.foldl State.abortSlot s).link.frames = s.link.frames := by
  induction is generalizing s with
  | nil => rfl
  | cons i is ih => simp [ih]
@[simp] theorem State.foldl_abortSlot_replies (is : List (Fin 16)) (s : State) : (is.foldl State.abortSlot s).link.replies = s.link.replies := by
  induction is generalizing s with
  | nil => rfl
  | cons i is ih => simp [ih]
@[simp] theorem State.foldl_abortSlot_hold (is : List (Fin 16)) (s : State) : (is.foldl State.abortSlot s).link.hold = s.link.hold := by
  induction is generalizing s with
  | nil => rfl
  | cons i is ih => simp [ih]
@[simp] theorem State.idleNotice_pixel (fs : List Slot) (s : State) : (s.idleNotice fs).pixel = s.pixel := by
  unfold State.idleNotice; split <;> simp
@[simp] theorem State.idleNotice_wave (fs : List Slot) (s : State) : (s.idleNotice fs).wave = s.wave := by
  unfold State.idleNotice; split <;> simp
@[simp] theorem State.idleNotice_temp (fs : List Slot) (s : State) : (s.idleNotice fs).temp = s.temp := by
  unfold State.idleNotice; split <;> simp
@[simp] theorem State.idleNotice_sched (fs : List Slot) (s : State) : (s.idleNotice fs).sched = s.sched := by
  unfold State.idleNotice; split <;> simp
@[simp] theorem State.idleNotice_ghost (fs : List Slot) (s : State) : (s.idleNotice fs).ghost = s.ghost := by
  unfold State.idleNotice; split <;> simp
@[simp] theorem State.idleNotice_frame (fs : List Slot) (s : State) : (s.idleNotice fs).frame = s.frame := by
  unfold State.idleNotice; split <;> simp
@[simp] theorem State.idleNotice_rail (fs : List Slot) (s : State) : (s.idleNotice fs).rail = s.rail := by
  unfold State.idleNotice; split <;> simp
@[simp] theorem State.idleNotice_pending (fs : List Slot) (s : State) : (s.idleNotice fs).pending = s.pending := by
  unfold State.idleNotice; split <;> simp
@[simp] theorem State.idleNotice_enables (fs : List Slot) (s : State) : (s.idleNotice fs).notice.enables = s.notice.enables := by
  unfold State.idleNotice; split <;> simp
@[simp] theorem State.idleNotice_mode (fs : List Slot) (s : State) : (s.idleNotice fs).notice.mode = s.notice.mode := by
  unfold State.idleNotice; split <;> simp
@[simp] theorem State.idleNotice_polarity (fs : List Slot) (s : State) : (s.idleNotice fs).notice.polarity = s.notice.polarity := by
  unfold State.idleNotice; split <;> simp
@[simp] theorem State.idleNotice_records (fs : List Slot) (s : State) : (s.idleNotice fs).notice.records = s.notice.records := by
  unfold State.idleNotice; split <;> simp
@[simp] theorem State.idleNotice_waits (fs : List Slot) (s : State) : (s.idleNotice fs).notice.waits = s.notice.waits := by
  unfold State.idleNotice; split <;> simp
@[simp] theorem State.idleNotice_ended (fs : List Slot) (s : State) : (s.idleNotice fs).notice.ended = s.notice.ended := by
  unfold State.idleNotice; split <;> simp
@[simp] theorem State.idleNotice_framing (fs : List Slot) (s : State) : (s.idleNotice fs).link.framing = s.link.framing := by
  unfold State.idleNotice; split <;> simp
@[simp] theorem State.idleNotice_frames (fs : List Slot) (s : State) : (s.idleNotice fs).link.frames = s.link.frames := by
  unfold State.idleNotice; split <;> simp
@[simp] theorem State.idleNotice_replies (fs : List Slot) (s : State) : (s.idleNotice fs).link.replies = s.link.replies := by
  unfold State.idleNotice; split <;> simp
@[simp] theorem State.idleNotice_hold (fs : List Slot) (s : State) : (s.idleNotice fs).link.hold = s.link.hold := by
  unfold State.idleNotice; split <;> simp
@[simp] theorem State.recover_pixel (fs : List Slot) (s : State) : (s.recover fs).pixel = s.pixel := by
  unfold State.recover; split <;> simp
@[simp] theorem State.recover_wave (fs : List Slot) (s : State) : (s.recover fs).wave = s.wave := by
  unfold State.recover; split <;> simp
@[simp] theorem State.recover_temp (fs : List Slot) (s : State) : (s.recover fs).temp = s.temp := by
  unfold State.recover; split <;> simp
@[simp] theorem State.recover_ghost (fs : List Slot) (s : State) : (s.recover fs).ghost = s.ghost := by
  unfold State.recover; split <;> simp
@[simp] theorem State.recover_frame (fs : List Slot) (s : State) : (s.recover fs).frame = s.frame := by
  unfold State.recover; split <;> simp
@[simp] theorem State.recover_rail (fs : List Slot) (s : State) : (s.recover fs).rail = s.rail := by
  unfold State.recover; split <;> simp
@[simp] theorem State.recover_notice (fs : List Slot) (s : State) : (s.recover fs).notice = s.notice := by
  unfold State.recover; split <;> simp
@[simp] theorem State.recover_link (fs : List Slot) (s : State) : (s.recover fs).link = s.link := by
  unfold State.recover; split <;> simp
@[simp] theorem State.recover_pending (fs : List Slot) (s : State) : (s.recover fs).pending = s.pending := by
  unfold State.recover; split <;> simp
@[simp] theorem State.supplyLoss_temp (s : State) : (s.supplyLoss).temp = s.temp := by
  simp [State.supplyLoss]
@[simp] theorem State.supplyLoss_pending (s : State) : (s.supplyLoss).pending = s.pending := by
  simp [State.supplyLoss]
@[simp] theorem State.supplyLoss_enables (s : State) : (s.supplyLoss).notice.enables = s.notice.enables := by
  simp [State.supplyLoss]
@[simp] theorem State.supplyLoss_mode (s : State) : (s.supplyLoss).notice.mode = s.notice.mode := by
  simp [State.supplyLoss]
@[simp] theorem State.supplyLoss_polarity (s : State) : (s.supplyLoss).notice.polarity = s.notice.polarity := by
  simp [State.supplyLoss]
@[simp] theorem State.supplyLoss_framing (s : State) : (s.supplyLoss).link.framing = s.link.framing := by
  simp [State.supplyLoss]
@[simp] theorem State.supplyLoss_frames (s : State) : (s.supplyLoss).link.frames = s.link.frames := by
  simp [State.supplyLoss]
@[simp] theorem State.supplyLoss_hold (s : State) : (s.supplyLoss).link.hold = s.link.hold := by
  simp [State.supplyLoss]

/-! The pending queue and the admission pass -/

@[simp] theorem State.leaveQueue_pixel (q : List PendingEntry) (s : State) : (s.leaveQueue q).pixel = s.pixel := by
  unfold State.leaveQueue; dsimp only; split <;> split <;> simp
@[simp] theorem State.leaveQueue_wave (q : List PendingEntry) (s : State) : (s.leaveQueue q).wave = s.wave := by
  unfold State.leaveQueue; dsimp only; split <;> split <;> simp
@[simp] theorem State.leaveQueue_temp (q : List PendingEntry) (s : State) : (s.leaveQueue q).temp = s.temp := by
  unfold State.leaveQueue; dsimp only; split <;> split <;> simp
@[simp] theorem State.leaveQueue_ghost (q : List PendingEntry) (s : State) : (s.leaveQueue q).ghost = s.ghost := by
  unfold State.leaveQueue; dsimp only; split <;> split <;> simp
@[simp] theorem State.leaveQueue_frame (q : List PendingEntry) (s : State) : (s.leaveQueue q).frame = s.frame := by
  unfold State.leaveQueue; dsimp only; split <;> split <;> simp
@[simp] theorem State.leaveQueue_rail (q : List PendingEntry) (s : State) : (s.leaveQueue q).rail = s.rail := by
  unfold State.leaveQueue; dsimp only; split <;> split <;> simp
@[simp] theorem State.leaveQueue_pending (q : List PendingEntry) (s : State) : (s.leaveQueue q).pending = s.pending := by
  unfold State.leaveQueue; dsimp only; split <;> split <;> simp
@[simp] theorem State.leaveQueue_enables (q : List PendingEntry) (s : State) : (s.leaveQueue q).notice.enables = s.notice.enables := by
  unfold State.leaveQueue; dsimp only; split <;> split <;> simp
@[simp] theorem State.leaveQueue_mode (q : List PendingEntry) (s : State) : (s.leaveQueue q).notice.mode = s.notice.mode := by
  unfold State.leaveQueue; dsimp only; split <;> split <;> simp
@[simp] theorem State.leaveQueue_polarity (q : List PendingEntry) (s : State) : (s.leaveQueue q).notice.polarity = s.notice.polarity := by
  unfold State.leaveQueue; dsimp only; split <;> split <;> simp
@[simp] theorem State.leaveQueue_records (q : List PendingEntry) (s : State) : (s.leaveQueue q).notice.records = s.notice.records := by
  unfold State.leaveQueue; dsimp only; split <;> split <;> simp
@[simp] theorem State.leaveQueue_waits (q : List PendingEntry) (s : State) : (s.leaveQueue q).notice.waits = s.notice.waits := by
  unfold State.leaveQueue; dsimp only; split <;> split <;> simp
@[simp] theorem State.leaveQueue_ended (q : List PendingEntry) (s : State) : (s.leaveQueue q).notice.ended = s.notice.ended := by
  unfold State.leaveQueue; dsimp only; split <;> split <;> simp
@[simp] theorem State.leaveQueue_framing (q : List PendingEntry) (s : State) : (s.leaveQueue q).link.framing = s.link.framing := by
  unfold State.leaveQueue; dsimp only; split <;> split <;> simp
@[simp] theorem State.leaveQueue_frames (q : List PendingEntry) (s : State) : (s.leaveQueue q).link.frames = s.link.frames := by
  unfold State.leaveQueue; dsimp only; split <;> split <;> simp
@[simp] theorem State.leaveQueue_replies (q : List PendingEntry) (s : State) : (s.leaveQueue q).link.replies = s.link.replies := by
  unfold State.leaveQueue; dsimp only; split <;> split <;> simp
@[simp] theorem State.leaveQueue_hold (q : List PendingEntry) (s : State) : (s.leaveQueue q).link.hold = s.link.hold := by
  unfold State.leaveQueue; dsimp only; split <;> split <;> simp
@[simp] theorem State.leaveQueue_queue (q : List PendingEntry) (s : State) : (s.leaveQueue q).sched.queue = q := by
  unfold State.leaveQueue; dsimp only; split <;> split <;> simp
@[simp] theorem State.fillSlot_wave (s : State) (i : Fin 16) (e : PendingEntry) (m : Mode) (x : Bool) (b : Fin 8) : (s.fillSlot i e m x b).wave = s.wave := rfl
@[simp] theorem State.fillSlot_temp (s : State) (i : Fin 16) (e : PendingEntry) (m : Mode) (x : Bool) (b : Fin 8) : (s.fillSlot i e m x b).temp = s.temp := rfl
@[simp] theorem State.fillSlot_sched (s : State) (i : Fin 16) (e : PendingEntry) (m : Mode) (x : Bool) (b : Fin 8) : (s.fillSlot i e m x b).sched = s.sched := rfl
@[simp] theorem State.fillSlot_rail (s : State) (i : Fin 16) (e : PendingEntry) (m : Mode) (x : Bool) (b : Fin 8) : (s.fillSlot i e m x b).rail = s.rail := rfl
@[simp] theorem State.fillSlot_notice (s : State) (i : Fin 16) (e : PendingEntry) (m : Mode) (x : Bool) (b : Fin 8) : (s.fillSlot i e m x b).notice = s.notice := rfl
@[simp] theorem State.fillSlot_link (s : State) (i : Fin 16) (e : PendingEntry) (m : Mode) (x : Bool) (b : Fin 8) : (s.fillSlot i e m x b).link = s.link := rfl
@[simp] theorem State.fillSlot_pending (s : State) (i : Fin 16) (e : PendingEntry) (m : Mode) (x : Bool) (b : Fin 8) : (s.fillSlot i e m x b).pending = s.pending := rfl
@[simp] theorem State.holdEntry_pixel (s : State) (n : Nat) : (s.holdEntry n).pixel = s.pixel := rfl
@[simp] theorem State.holdEntry_wave (s : State) (n : Nat) : (s.holdEntry n).wave = s.wave := rfl
@[simp] theorem State.holdEntry_temp (s : State) (n : Nat) : (s.holdEntry n).temp = s.temp := rfl
@[simp] theorem State.holdEntry_sched (s : State) (n : Nat) : (s.holdEntry n).sched = s.sched := rfl
@[simp] theorem State.holdEntry_ghost (s : State) (n : Nat) : (s.holdEntry n).ghost = s.ghost := rfl
@[simp] theorem State.holdEntry_rail (s : State) (n : Nat) : (s.holdEntry n).rail = s.rail := rfl
@[simp] theorem State.holdEntry_notice (s : State) (n : Nat) : (s.holdEntry n).notice = s.notice := rfl
@[simp] theorem State.holdEntry_link (s : State) (n : Nat) : (s.holdEntry n).link = s.link := rfl
@[simp] theorem State.holdEntry_pending (s : State) (n : Nat) : (s.holdEntry n).pending = s.pending := rfl
@[simp] theorem State.refuseEntry_pixel (s : State) (n : Nat) (e : PendingEntry) (o : UpdateOutcome) (m : Mode) (x : Bool) : (s.refuseEntry n e o m x).pixel = s.pixel := by
  simp [State.refuseEntry]
@[simp] theorem State.refuseEntry_wave (s : State) (n : Nat) (e : PendingEntry) (o : UpdateOutcome) (m : Mode) (x : Bool) : (s.refuseEntry n e o m x).wave = s.wave := by
  simp [State.refuseEntry]
@[simp] theorem State.refuseEntry_temp (s : State) (n : Nat) (e : PendingEntry) (o : UpdateOutcome) (m : Mode) (x : Bool) : (s.refuseEntry n e o m x).temp = s.temp := by
  simp [State.refuseEntry]
@[simp] theorem State.refuseEntry_ghost (s : State) (n : Nat) (e : PendingEntry) (o : UpdateOutcome) (m : Mode) (x : Bool) : (s.refuseEntry n e o m x).ghost = s.ghost := by
  simp [State.refuseEntry]
@[simp] theorem State.refuseEntry_frame (s : State) (n : Nat) (e : PendingEntry) (o : UpdateOutcome) (m : Mode) (x : Bool) : (s.refuseEntry n e o m x).frame = s.frame := by
  simp [State.refuseEntry]
@[simp] theorem State.refuseEntry_rail (s : State) (n : Nat) (e : PendingEntry) (o : UpdateOutcome) (m : Mode) (x : Bool) : (s.refuseEntry n e o m x).rail = s.rail := by
  simp [State.refuseEntry]
@[simp] theorem State.refuseEntry_pending (s : State) (n : Nat) (e : PendingEntry) (o : UpdateOutcome) (m : Mode) (x : Bool) : (s.refuseEntry n e o m x).pending = s.pending := by
  simp [State.refuseEntry]
@[simp] theorem State.refuseEntry_enables (s : State) (n : Nat) (e : PendingEntry) (o : UpdateOutcome) (m : Mode) (x : Bool) : (s.refuseEntry n e o m x).notice.enables = s.notice.enables := by
  simp [State.refuseEntry]
@[simp] theorem State.refuseEntry_mode (s : State) (n : Nat) (e : PendingEntry) (o : UpdateOutcome) (m : Mode) (x : Bool) : (s.refuseEntry n e o m x).notice.mode = s.notice.mode := by
  simp [State.refuseEntry]
@[simp] theorem State.refuseEntry_polarity (s : State) (n : Nat) (e : PendingEntry) (o : UpdateOutcome) (m : Mode) (x : Bool) : (s.refuseEntry n e o m x).notice.polarity = s.notice.polarity := by
  simp [State.refuseEntry]
@[simp] theorem State.refuseEntry_framing (s : State) (n : Nat) (e : PendingEntry) (o : UpdateOutcome) (m : Mode) (x : Bool) : (s.refuseEntry n e o m x).link.framing = s.link.framing := by
  simp [State.refuseEntry]
@[simp] theorem State.refuseEntry_frames (s : State) (n : Nat) (e : PendingEntry) (o : UpdateOutcome) (m : Mode) (x : Bool) : (s.refuseEntry n e o m x).link.frames = s.link.frames := by
  simp [State.refuseEntry]
@[simp] theorem State.refuseEntry_hold (s : State) (n : Nat) (e : PendingEntry) (o : UpdateOutcome) (m : Mode) (x : Bool) : (s.refuseEntry n e o m x).link.hold = s.link.hold := by
  simp [State.refuseEntry]
@[simp] theorem State.enterEntry_wave (s : State) (n : Nat) (i : Fin 16) (e : PendingEntry) (m : Mode) (x : Bool) : (s.enterEntry n i e m x).wave = s.wave := by
  simp [State.enterEntry]
@[simp] theorem State.enterEntry_temp (s : State) (n : Nat) (i : Fin 16) (e : PendingEntry) (m : Mode) (x : Bool) : (s.enterEntry n i e m x).temp = s.temp := by
  simp [State.enterEntry]
@[simp] theorem State.enterEntry_rail (s : State) (n : Nat) (i : Fin 16) (e : PendingEntry) (m : Mode) (x : Bool) : (s.enterEntry n i e m x).rail = s.rail := by
  simp [State.enterEntry]
@[simp] theorem State.enterEntry_pending (s : State) (n : Nat) (i : Fin 16) (e : PendingEntry) (m : Mode) (x : Bool) : (s.enterEntry n i e m x).pending = s.pending := by
  simp [State.enterEntry]
@[simp] theorem State.enterEntry_enables (s : State) (n : Nat) (i : Fin 16) (e : PendingEntry) (m : Mode) (x : Bool) : (s.enterEntry n i e m x).notice.enables = s.notice.enables := by
  simp [State.enterEntry]
@[simp] theorem State.enterEntry_mode (s : State) (n : Nat) (i : Fin 16) (e : PendingEntry) (m : Mode) (x : Bool) : (s.enterEntry n i e m x).notice.mode = s.notice.mode := by
  simp [State.enterEntry]
@[simp] theorem State.enterEntry_polarity (s : State) (n : Nat) (i : Fin 16) (e : PendingEntry) (m : Mode) (x : Bool) : (s.enterEntry n i e m x).notice.polarity = s.notice.polarity := by
  simp [State.enterEntry]
@[simp] theorem State.enterEntry_records (s : State) (n : Nat) (i : Fin 16) (e : PendingEntry) (m : Mode) (x : Bool) : (s.enterEntry n i e m x).notice.records = s.notice.records := by
  simp [State.enterEntry]
@[simp] theorem State.enterEntry_framing (s : State) (n : Nat) (i : Fin 16) (e : PendingEntry) (m : Mode) (x : Bool) : (s.enterEntry n i e m x).link.framing = s.link.framing := by
  simp [State.enterEntry]
@[simp] theorem State.enterEntry_frames (s : State) (n : Nat) (i : Fin 16) (e : PendingEntry) (m : Mode) (x : Bool) : (s.enterEntry n i e m x).link.frames = s.link.frames := by
  simp [State.enterEntry]
@[simp] theorem State.enterEntry_hold (s : State) (n : Nat) (i : Fin 16) (e : PendingEntry) (m : Mode) (x : Bool) : (s.enterEntry n i e m x).link.hold = s.link.hold := by
  simp [State.enterEntry]
@[simp] theorem State.examine_wave (s : State) (n : Nat) (e : PendingEntry) : (s.examine n e).wave = s.wave := by
  unfold State.examine; split <;> (try split) <;> (try split) <;> simp
@[simp] theorem State.examine_temp (s : State) (n : Nat) (e : PendingEntry) : (s.examine n e).temp = s.temp := by
  unfold State.examine; split <;> (try split) <;> (try split) <;> simp
@[simp] theorem State.examine_rail (s : State) (n : Nat) (e : PendingEntry) : (s.examine n e).rail = s.rail := by
  unfold State.examine; split <;> (try split) <;> (try split) <;> simp
@[simp] theorem State.examine_pending (s : State) (n : Nat) (e : PendingEntry) : (s.examine n e).pending = s.pending := by
  unfold State.examine; split <;> (try split) <;> (try split) <;> simp
@[simp] theorem State.examine_enables (s : State) (n : Nat) (e : PendingEntry) : (s.examine n e).notice.enables = s.notice.enables := by
  unfold State.examine; split <;> (try split) <;> (try split) <;> simp
@[simp] theorem State.examine_mode (s : State) (n : Nat) (e : PendingEntry) : (s.examine n e).notice.mode = s.notice.mode := by
  unfold State.examine; split <;> (try split) <;> (try split) <;> simp
@[simp] theorem State.examine_polarity (s : State) (n : Nat) (e : PendingEntry) : (s.examine n e).notice.polarity = s.notice.polarity := by
  unfold State.examine; split <;> (try split) <;> (try split) <;> simp
@[simp] theorem State.examine_framing (s : State) (n : Nat) (e : PendingEntry) : (s.examine n e).link.framing = s.link.framing := by
  unfold State.examine; split <;> (try split) <;> (try split) <;> simp
@[simp] theorem State.examine_frames (s : State) (n : Nat) (e : PendingEntry) : (s.examine n e).link.frames = s.link.frames := by
  unfold State.examine; split <;> (try split) <;> (try split) <;> simp
@[simp] theorem State.examine_hold (s : State) (n : Nat) (e : PendingEntry) : (s.examine n e).link.hold = s.link.hold := by
  unfold State.examine; split <;> (try split) <;> (try split) <;> simp

/-! Resets and the Timebase -/

@[simp] theorem State.freeSlotSilently_wave (s : State) (q : Fin 16 × Slot) : (s.freeSlotSilently q).wave = s.wave := rfl
@[simp] theorem State.freeSlotSilently_temp (s : State) (q : Fin 16 × Slot) : (s.freeSlotSilently q).temp = s.temp := rfl
@[simp] theorem State.freeSlotSilently_sched (s : State) (q : Fin 16 × Slot) : (s.freeSlotSilently q).sched = s.sched := rfl
@[simp] theorem State.freeSlotSilently_rail (s : State) (q : Fin 16 × Slot) : (s.freeSlotSilently q).rail = s.rail := rfl
@[simp] theorem State.freeSlotSilently_notice (s : State) (q : Fin 16 × Slot) : (s.freeSlotSilently q).notice = s.notice := rfl
@[simp] theorem State.freeSlotSilently_link (s : State) (q : Fin 16 × Slot) : (s.freeSlotSilently q).link = s.link := rfl
@[simp] theorem State.freeSlotSilently_pending (s : State) (q : Fin 16 × Slot) : (s.freeSlotSilently q).pending = s.pending := rfl
@[simp] theorem State.foldl_freeSlotSilently_wave (qs : List (Fin 16 × Slot)) (s : State) : (qs.foldl State.freeSlotSilently s).wave = s.wave := by
  induction qs generalizing s with
  | nil => rfl
  | cons i is ih => simp [ih]
@[simp] theorem State.foldl_freeSlotSilently_temp (qs : List (Fin 16 × Slot)) (s : State) : (qs.foldl State.freeSlotSilently s).temp = s.temp := by
  induction qs generalizing s with
  | nil => rfl
  | cons i is ih => simp [ih]
@[simp] theorem State.foldl_freeSlotSilently_sched (qs : List (Fin 16 × Slot)) (s : State) : (qs.foldl State.freeSlotSilently s).sched = s.sched := by
  induction qs generalizing s with
  | nil => rfl
  | cons i is ih => simp [ih]
@[simp] theorem State.foldl_freeSlotSilently_rail (qs : List (Fin 16 × Slot)) (s : State) : (qs.foldl State.freeSlotSilently s).rail = s.rail := by
  induction qs generalizing s with
  | nil => rfl
  | cons i is ih => simp [ih]
@[simp] theorem State.foldl_freeSlotSilently_notice (qs : List (Fin 16 × Slot)) (s : State) : (qs.foldl State.freeSlotSilently s).notice = s.notice := by
  induction qs generalizing s with
  | nil => rfl
  | cons i is ih => simp [ih]
@[simp] theorem State.foldl_freeSlotSilently_link (qs : List (Fin 16 × Slot)) (s : State) : (qs.foldl State.freeSlotSilently s).link = s.link := by
  induction qs generalizing s with
  | nil => rfl
  | cons i is ih => simp [ih]
@[simp] theorem State.foldl_freeSlotSilently_pending (qs : List (Fin 16 × Slot)) (s : State) : (qs.foldl State.freeSlotSilently s).pending = s.pending := by
  induction qs generalizing s with
  | nil => rfl
  | cons i is ih => simp [ih]
@[simp] theorem State.stepTimers_pixel (s : State) : (s.stepTimers).pixel = s.pixel := rfl
@[simp] theorem State.stepTimers_wave (s : State) : (s.stepTimers).wave = s.wave := rfl
@[simp] theorem State.stepTimers_sched (s : State) : (s.stepTimers).sched = s.sched := rfl
@[simp] theorem State.stepTimers_frame (s : State) : (s.stepTimers).frame = s.frame := rfl
@[simp] theorem State.stepTimers_link (s : State) : (s.stepTimers).link = s.link := rfl
@[simp] theorem State.stepTimers_pending (s : State) : (s.stepTimers).pending = s.pending := rfl
@[simp] theorem State.stepTimers_kinds (s : State) : (s.stepTimers).notice.kinds = s.notice.kinds := rfl
@[simp] theorem State.stepTimers_enables (s : State) : (s.stepTimers).notice.enables = s.notice.enables := rfl
@[simp] theorem State.stepTimers_mode (s : State) : (s.stepTimers).notice.mode = s.notice.mode := rfl
@[simp] theorem State.stepTimers_polarity (s : State) : (s.stepTimers).notice.polarity = s.notice.polarity := rfl
@[simp] theorem State.stepTimers_records (s : State) : (s.stepTimers).notice.records = s.notice.records := rfl
@[simp] theorem State.stepTimers_ended (s : State) : (s.stepTimers).notice.ended = s.notice.ended := rfl
@[simp] theorem State.softReset_pending (s : State) : s.softReset.pending = s.pending := by
  simp [State.softReset]

end Sys2Proof.Machine
end

