-- ==== Sys2Proof/Laws/Link.lean ====
section
/-! SUPPORT. What HOLD, ATTN and the reply queue become. -/

namespace Sys2Proof.Machine

/-! ### HOLD -/

@[simp] theorem MessageLink.drawHold_reserved (l : MessageLink) : l.drawHold.reserved = l.reserved := rfl
@[simp] theorem MessageLink.drawHold_rxFree (l : MessageLink) : l.drawHold.rxFree = l.rxFree := rfl

/-- HOLD stands where it agrees with the free count already. -/
theorem MessageLink.drawHold_eq_self (l : MessageLink) (h1 : l.rxFree < Config.holdBelow → l.hold = true)
    (h2 : Config.releaseFrom ≤ l.rxFree → l.hold = false) : l.drawHold = l := by
  unfold MessageLink.drawHold
  split
  · rw [← h1 ‹_›]
  · split
    · rw [← h2 ‹_›]
    · rfl

/-- HOLD agrees with the free count once it is drawn. -/
theorem MessageLink.drawHold_agrees (l : MessageLink) :
    (l.drawHold.rxFree < Config.holdBelow → l.drawHold.hold = true) ∧
    (Config.releaseFrom ≤ l.drawHold.rxFree → l.drawHold.hold = false) ∧
    (Config.holdBelow ≤ l.drawHold.rxFree → l.drawHold.rxFree < Config.releaseFrom → l.drawHold.hold = l.hold) := by
  have hlt : Config.holdBelow < Config.releaseFrom := by decide
  simp only [MessageLink.drawHold_rxFree]
  refine ⟨fun h => ?_, fun h => ?_, fun h h' => ?_⟩
  · simp [MessageLink.drawHold, h]
  · simp [MessageLink.drawHold, h, Nat.not_lt.2 (hlt.le.trans h)]
  · simp [MessageLink.drawHold, Nat.not_lt.2 h, Nat.not_le.2 h']

/-! ### ATTN -/

theorem State.drawAttn_level (s : State) (c : Bool) (h : s.notice.mode = .level) :
    (s.drawAttn c).link.attn = s.attnCondition := by simp [State.drawAttn, h]

theorem State.drawAttn_pulse (s : State) (c : Bool) (h : s.notice.mode = .pulse) :
    (s.drawAttn c).link.attn = (s.link.attn || c) := by simp [State.drawAttn, h]

/-- In mode LEVEL the line agrees with its condition after every draw. -/
theorem State.drawAttn_agrees (s : State) (c : Bool) (h : (s.drawAttn c).notice.mode = .level) :
    (s.drawAttn c).link.attn = (s.drawAttn c).attnCondition := by
  rw [State.drawAttn_level s c h]
  rfl

/-! ### The pending kinds and the reply queue -/

@[simp] theorem State.raise_kinds (k : NoticeKind) (s : State) : (s.raise k).notice.kinds = s.notice.kinds ||| k.bit := rfl
@[simp] theorem State.drop_kinds (S : KindSet) (s : State) : (s.drop S).notice.kinds = s.notice.kinds &&& ~~~S := rfl
@[simp] theorem State.pushReply_replies (r : Reply) (s : State) :
    (s.pushReply r).link.replies = s.link.replies ++ [r] := rfl
@[simp] theorem State.popReply_replies (s : State) : s.popReply.link.replies = s.link.replies.tail := rfl

/-- What a REPLY_SENT does: nothing, or, after the last byte of the reply at the head, the reply leaves the queue. -/
theorem execReplySent_cases (s : State) : execReplySent s = .next s ∨
    ∃ sent r rs, s.link.framing = .read sent false ∧ s.link.replies = r :: rs ∧ sent + 1 = r.bytes.length ∧
      execReplySent s = .next (s.setFraming (.read 0 false)).popReply := by
  unfold execReplySent
  split
  · rename_i sent r rs hf hr
    split
    · exact .inr ⟨sent, r, rs, hf, hr, ‹_›, rfl⟩
    · exact .inl rfl
  · exact .inl rfl

/-- A kind is pending after another kind is raised exactly when it was, or is the kind raised. -/
theorem KindSet.mem_raise (k j : NoticeKind) (S : KindSet) :
    KindSet.mem j (S ||| k.bit) = (KindSet.mem j S || decide (j = k)) := by
  unfold KindSet.mem NoticeKind.bit
  rw [BitVec.getLsbD_or]
  congr 1
  cases k <;> cases j <;> rfl

/-- A kind raised in mode PULSE begins a pulse where it is enabled and was not pending. -/
theorem State.raise_pulse (k : NoticeKind) (s : State) (h : s.notice.mode = .pulse) : (s.raise k).link.attn =
    (s.link.attn || KindSet.mem k s.notice.enables && !KindSet.mem k s.notice.kinds) :=
  State.drawAttn_pulse _ _ h

/-- The kinds pending after a record joins the completion list. -/
theorem State.joinRecord_mem (r : CompletionRecord) (s : State) (k : NoticeKind) :
    KindSet.mem k (s.joinRecord r).notice.kinds = (KindSet.mem k s.notice.kinds || decide (k = .done) ||
      (decide (k = .overflow) && decide (16 ≤ s.notice.records.length)) ||
      (decide (k = .failed) && decide (r.outcome ≠ .done))) := by
  by_cases h : 16 ≤ s.notice.records.length <;> by_cases ho : r.outcome = .done <;> cases k <;>
    simp [State.joinRecord, Config.recordCapacity, h, ho, KindSet.mem_raise]

/-- The completion list after a record joins it holds at most sixteen records, the newest last. -/
theorem State.joinRecord_records (r : CompletionRecord) (s : State) : (s.joinRecord r).notice.records =
    (if 16 ≤ s.notice.records.length then s.notice.records.tail else s.notice.records) ++ [r] := by
  by_cases h : 16 ≤ s.notice.records.length <;> by_cases ho : r.outcome = .done <;>
    simp [State.joinRecord, Config.recordCapacity, h, ho]

end Sys2Proof.Machine
end

