-- ==== Sys2Proof/Laws/Memory.lean ====
section
/-! SUPPORT. The laws of addressed memories: a write is read back, leaves every other address alone and keeps the canonical
form; and what painting a rectangle of a plane does to every pixel. -/

namespace Sys2Proof.Machine

theorem Memory.read_write {w : Nat} (d : BitVec w) (m : List (Nat × BitVec w)) (a b : Nat) (v : BitVec w)
    (h : Memory.wf d m = true) :
    Memory.read d (Memory.write d m a v) b = if b = a then v else Memory.read d m b := by
  induction m with
  | nil =>
    unfold Memory.write
    by_cases hv : v = d <;> by_cases hb : b = a <;> simp [Memory.read, hv, hb]
  | cons p m ih =>
    obtain ⟨k, u⟩ := p
    simp only [Memory.wf, Bool.and_eq_true, List.all_eq_true, decide_eq_true_eq] at h
    obtain ⟨⟨hu, hk⟩, hm⟩ := h
    have below : ∀ c : Nat, c ≤ k → Memory.read d m c = d := by
      intro c hc
      clear ih hm hu
      induction m with
      | nil => rfl
      | cons q m ih =>
        have := hk q (List.mem_cons_self)
        obtain ⟨k', u'⟩ := q
        simp only at this
        rw [Memory.read, if_neg (by omega)]
        exact ih (fun x hx => hk x (List.mem_cons_of_mem _ hx))
    unfold Memory.write
    by_cases h1 : a < k
    · rw [if_pos h1]
      by_cases hv : v = d
      · rw [if_pos hv]
        by_cases hb : b = a
        · subst hb
          rw [if_pos rfl, Memory.read, if_neg (by omega), below b (by omega), hv]
        · rw [if_neg hb]
      · rw [if_neg hv, Memory.read]
    · rw [if_neg h1]
      by_cases h2 : a = k
      · subst h2
        rw [if_pos rfl]
        by_cases hv : v = d
        · rw [if_pos hv]
          by_cases hb : b = a
          · subst hb; rw [if_pos rfl, below b (le_refl _), hv]
          · rw [if_neg hb, Memory.read, if_neg hb]
        · rw [if_neg hv]
          simp only [Memory.read]
          split <;> rfl
      · rw [if_neg h2]
        simp only [Memory.read]
        by_cases hb : b = k
        · rw [if_pos hb, if_pos hb, if_neg (by omega)]
        · rw [if_neg hb, if_neg hb, ih hm]

theorem Memory.all_write {w : Nat} (d : BitVec w) (m : List (Nat × BitVec w)) (a k : Nat) (v : BitVec w)
    (hm : ∀ p ∈ m, k < p.1) (ha : k < a) : ∀ p ∈ Memory.write d m a v, k < p.1 := by
  induction m with
  | nil =>
    intro p hp
    unfold Memory.write at hp
    by_cases hv : v = d <;> simp_all
  | cons q m ih =>
    obtain ⟨k', u'⟩ := q
    have hq : k < k' := hm (k', u') List.mem_cons_self
    have hrest : ∀ p ∈ m, k < p.1 := fun p hp => hm p (List.mem_cons_of_mem _ hp)
    intro p hp
    unfold Memory.write at hp
    split at hp
    · split at hp
      · exact hm p hp
      · rcases List.mem_cons.1 hp with rfl | hp
        · exact ha
        · exact hm p hp
    · split at hp
      · split at hp
        · exact hrest p hp
        · rcases List.mem_cons.1 hp with rfl | hp
          · exact ha
          · exact hrest p hp
      · rcases List.mem_cons.1 hp with rfl | hp
        · exact hq
        · exact ih hrest p hp

/-- A write keeps the canonical form. -/
theorem Memory.wf_write {w : Nat} (d : BitVec w) (m : List (Nat × BitVec w)) (a : Nat) (v : BitVec w)
    (h : Memory.wf d m = true) : Memory.wf d (Memory.write d m a v) = true := by
  induction m with
  | nil =>
    unfold Memory.write
    by_cases hv : v = d <;> simp [Memory.wf, hv]
  | cons p m ih =>
    obtain ⟨k, u⟩ := p
    have h0 := h
    simp only [Memory.wf, Bool.and_eq_true, List.all_eq_true, decide_eq_true_eq] at h
    obtain ⟨⟨hu, hk⟩, hm⟩ := h
    unfold Memory.write
    split
    next h1 =>
      split
      · exact h0
      next hv =>
        rw [Memory.wf, h0]
        simp only [List.all_cons, Bool.and_eq_true, List.all_eq_true, decide_eq_true_eq, bne_iff_ne, ne_eq]
        exact ⟨⟨hv, h1, fun x hx => lt_trans h1 (hk x hx)⟩, trivial⟩
    · split
      next h2 =>
        split
        · exact hm
        next hv =>
          subst h2
          simp only [Memory.wf, Bool.and_eq_true, List.all_eq_true, decide_eq_true_eq, bne_iff_ne, ne_eq]
          exact ⟨⟨hv, hk⟩, hm⟩
      next h1 h2 =>
        simp only [Memory.wf, Bool.and_eq_true, List.all_eq_true, decide_eq_true_eq]
        exact ⟨⟨hu, Memory.all_write d m a k v hk (by omega)⟩, ih hm⟩

theorem Memory.wf_writeEach {w : Nat} (d : BitVec w) (m : List (Nat × BitVec w)) (as : List Nat) (f : Nat → BitVec w)
    (h : Memory.wf d m = true) : Memory.wf d (Memory.writeEach d m as f) = true := by
  induction as with
  | nil => exact h
  | cons a as ih => exact Memory.wf_write d _ a _ ih

theorem Memory.read_writeEach {w : Nat} (d : BitVec w) (m : List (Nat × BitVec w)) (as : List Nat) (f : Nat → BitVec w)
    (h : Memory.wf d m = true) (b : Nat) :
    Memory.read d (Memory.writeEach d m as f) b = if b ∈ as then f b else Memory.read d m b := by
  induction as with
  | nil => simp [Memory.writeEach]
  | cons a as ih =>
    change Memory.read d (Memory.write d (Memory.writeEach d m as f) a (f a)) b = _
    rw [Memory.read_write d _ a b _ (Memory.wf_writeEach d m as f h), ih]
    by_cases hb : b = a <;> simp [hb]

/-! ### Rectangles -/

theorem Rect.mem_pixels (r : Rect) (x y : Nat) : (x, y) ∈ r.pixels ↔ r.has x y = true := by
  simp only [Rect.pixels, List.mem_flatMap, List.mem_map, List.mem_range, Prod.mk.injEq, Rect.has, Bool.and_eq_true,
    decide_eq_true_eq]
  constructor
  · rintro ⟨j, hj, i, hi, rfl, rfl⟩; omega
  · rintro ⟨⟨⟨h1, h2⟩, h3⟩, h4⟩
    exact ⟨y - r.y, by omega, x - r.x, by omega, by omega, by omega⟩

theorem Rect.length_pixels (r : Rect) : r.pixels.length = r.w * r.h := by
  simp [Rect.pixels, List.length_flatMap, Nat.mul_comm]

theorem Rect.has_inter (r q : Rect) (x y : Nat) : (r.inter q).has x y = (r.has x y && q.has x y) := by
  rw [Bool.eq_iff_iff]
  have hx : min (r.x + r.w) (q.x + q.w) - max r.x q.x + max r.x q.x = max (min (r.x + r.w) (q.x + q.w)) (max r.x q.x) := by
    omega
  have hy : min (r.y + r.h) (q.y + q.h) - max r.y q.y + max r.y q.y = max (min (r.y + r.h) (q.y + q.h)) (max r.y q.y) := by
    omega
  simp only [Rect.has, Rect.inter, Bool.and_eq_true, decide_eq_true_eq, Nat.add_comm (max _ _) (_ - _), hx, hy,
    Nat.max_le, lt_max_iff, lt_min_iff]
  constructor
  · rintro ⟨⟨⟨⟨h1, h2⟩, h3⟩, ⟨h4, h5⟩⟩, h6⟩; omega
  · rintro ⟨⟨⟨⟨h1, h2⟩, h3⟩, h4⟩, ⟨⟨h5, h6⟩, h7⟩, h8⟩; omega

theorem TileRect.mem_tiles (t : TileRect) (i j : Nat) : (i, j) ∈ t.tiles ↔ t.has i j = true := by
  simp only [TileRect.tiles, List.mem_flatMap, List.mem_map, List.mem_range, Prod.mk.injEq, TileRect.has, Bool.and_eq_true,
    decide_eq_true_eq]
  constructor
  · rintro ⟨b, hb, a, ha, rfl, rfl⟩; omega
  · rintro ⟨⟨⟨h1, h2⟩, h3⟩, h4⟩
    exact ⟨j - t.row, by omega, i - t.col, by omega, by omega, by omega⟩

/-- Two tile rectangles overlap exactly when they have a tile in common. -/
theorem TileRect.overlaps_iff (t u : TileRect) :
    t.overlaps u = true ↔ ∃ i j, t.has i j = true ∧ u.has i j = true := by
  simp only [TileRect.overlaps, TileRect.has, Bool.and_eq_true, decide_eq_true_eq]
  constructor
  · intro h; exact ⟨max t.col u.col, max t.row u.row, by omega, by omega⟩
  · rintro ⟨i, j, h1, h2⟩; omega

/-! ### Planes -/

theorem pixelAddress_inj {x y x' y' : Nat} (hx : x < Config.planeStride) (hx' : x' < Config.planeStride)
    (h : pixelAddress x y = pixelAddress x' y') : x = x' ∧ y = y' := by
  simp only [pixelAddress, Config.planeStride] at *
  omega

theorem Plane.wf_paint (p : Plane) (r : Rect) (f : Nat → Nat → Level) (h : Memory.wf white p = true) :
    Memory.wf white (p.paint r f) = true := by
  unfold Plane.paint
  generalize r.pixels = qs
  induction qs with
  | nil => exact h
  | cons q qs ih => exact Memory.wf_write _ _ _ _ ih

/-- Painting a rectangle gives each of its pixels the level painted and leaves every other pixel alone. -/
theorem Plane.level_paint (p : Plane) (r : Rect) (f : Nat → Nat → Level) (h : Memory.wf white p = true) (hr : r.w = 0 ∨ r.x + r.w ≤ Config.planeStride)
    (x y : Nat) (hx : x < Config.planeStride) :
    (p.paint r f).level x y = if r.has x y then f x y else p.level x y := by
  have key : ∀ qs : List (Nat × Nat), (∀ q ∈ qs, q.1 < Config.planeStride) →
      Memory.wf white (qs.foldr (fun q m => Memory.write white m (pixelAddress q.1 q.2) (f q.1 q.2)) p) = true ∧
      Memory.read white (qs.foldr (fun q m => Memory.write white m (pixelAddress q.1 q.2) (f q.1 q.2)) p) (pixelAddress x y) =
        if (x, y) ∈ qs then f x y else p.level x y := by
    intro qs
    induction qs with
    | nil => intro _; exact ⟨h, by simp [Plane.level]⟩
    | cons q qs ih =>
      intro hq
      obtain ⟨h1, h2⟩ := ih (fun q' hq' => hq q' (List.mem_cons_of_mem _ hq'))
      refine ⟨Memory.wf_write _ _ _ _ h1, ?_⟩
      rw [List.foldr_cons, Memory.read_write _ _ _ _ _ h1, h2]
      by_cases he : (x, y) = q
      · subst he; simp
      · have : pixelAddress x y ≠ pixelAddress q.1 q.2 := by
          intro hh
          obtain ⟨e1, e2⟩ := pixelAddress_inj hx (hq q List.mem_cons_self) hh
          exact he (Prod.ext e1 e2)
        simp [this, he]
  have hp := (key r.pixels (by
    rintro ⟨a, b⟩ hab
    rw [Rect.mem_pixels] at hab
    simp only [Rect.has, Bool.and_eq_true, decide_eq_true_eq] at hab
    rcases hr with h0 | h0 <;> simp only; all_goals omega)).2
  rw [Plane.level, Plane.paint, hp]
  simp only [Rect.mem_pixels]

end Sys2Proof.Machine
end

