-- ==== Sys2Proof/Laws/Operands.lean ====
section
/-! SUPPORT. The enumerated fields of requests: a code names a value exactly when it is the value's own code. -/

namespace Sys2Proof.Machine

theorem Mode.ofCode_eq_some (n : Nat) (m : Mode) : Mode.ofCode n = some m ↔ n = m.code := by
  unfold Mode.ofCode
  split <;> cases m <;> simp_all [Mode.code]

theorem Policy.ofCode_eq_some (n : Nat) (p : Policy) : Policy.ofCode n = some p ↔ n = p.code := by
  unfold Policy.ofCode
  split <;> cases p <;> simp_all [Policy.code]

theorem TriggerSource.ofCode_eq_some (n : Nat) (t : TriggerSource) : TriggerSource.ofCode n = some t ↔ n = t.code := by
  unfold TriggerSource.ofCode
  split <;> cases t <;> simp_all [TriggerSource.code]

theorem ComparatorMode.ofCode_eq_some (n : Nat) (c : ComparatorMode) : ComparatorMode.ofCode n = some c ↔ n = c.code := by
  unfold ComparatorMode.ofCode
  split <;> cases c <;> simp_all [ComparatorMode.code]

theorem AttnMode.ofCode_eq_some (n : Nat) (a : AttnMode) : AttnMode.ofCode n = some a ↔ n = a.code := by
  unfold AttnMode.ofCode
  split <;> cases a <;> simp_all [AttnMode.code]

theorem Polarity.ofCode_eq_some (n : Nat) (p : Polarity) : Polarity.ofCode n = some p ↔ n = p.code := by
  unfold Polarity.ofCode
  split <;> cases p <;> simp_all [Polarity.code]

theorem bandOfCode_eq_some (n : Nat) (b : Fin 8) : bandOfCode n = some b ↔ n = b.val := by
  unfold bandOfCode
  split
  · simp only [Option.some.injEq, Fin.ext_iff]
  · exact ⟨(fun h => nomatch h), fun h => by omega⟩

/-- The codes that name no value are those above the last. -/
theorem ofCode_eq_none (n : Nat) :
    (Mode.ofCode n = none ↔ 4 < n) ∧ (Policy.ofCode n = none ↔ 2 < n) ∧ (TriggerSource.ofCode n = none ↔ 3 < n) ∧
    (ComparatorMode.ofCode n = none ↔ 3 < n) ∧ (AttnMode.ofCode n = none ↔ 1 < n) ∧ (Polarity.ofCode n = none ↔ 1 < n) ∧
    (PixelFormat.ofCode n = none ↔ 2 < n) ∧ (bandOfCode n = none ↔ 7 < n) := by
  refine ⟨?_, ?_, ?_, ?_, ?_, ?_, ?_, by unfold bandOfCode; split <;> simp <;> omega⟩ <;> rcases n with _ | _ | _ | _ | _ | n <;>
    simp [Mode.ofCode, Policy.ofCode, TriggerSource.ofCode, ComparatorMode.ofCode, AttnMode.ofCode, Polarity.ofCode,
      PixelFormat.ofCode]

end Sys2Proof.Machine
end

