-- ==== Sys2Proof/Laws/PerInstr.lean ====
section
/-! SUPPORT. Statements for all commands, one lemma for each command. -/

namespace Sys2Proof.Laws.OperandsWellFormed

/-- A command is well formed unless it is a BAD_SYNC that carries the sync byte (R140). -/
def Statement (i : Instr) : Prop := i.wellFormed = true ↔ i ≠ .badSync syncByte

theorem powerOnReset : Statement (.powerOnReset) := by simp [Statement, Instr.wellFormed]
theorem transactionPrefix (byte : Byte) : Statement (.transactionPrefix byte) := by simp [Statement, Instr.wellFormed]
theorem badSync (byte : Byte) : Statement (.badSync byte) := by simp [Statement, Instr.wellFormed]
theorem headerTaken (byte : Byte) : Statement (.headerTaken byte) := by simp [Statement, Instr.wellFormed]
theorem frameComplete (byte : Byte) : Statement (.frameComplete byte) := by simp [Statement, Instr.wellFormed]
theorem skipEnd (byte : Byte) : Statement (.skipEnd byte) := by simp [Statement, Instr.wellFormed]
theorem selectRelease : Statement (.selectRelease) := by simp [Statement, Instr.wellFormed]
theorem replySent : Statement (.replySent) := by simp [Statement, Instr.wellFormed]
theorem waitReplyPlaced : Statement (.waitReplyPlaced) := by simp [Statement, Instr.wellFormed]
theorem unknownKind : Statement (.unknownKind) := by simp [Statement, Instr.wellFormed]
theorem status : Statement (.status) := by simp [Statement, Instr.wellFormed]
theorem resetPart : Statement (.resetPart) := by simp [Statement, Instr.wellFormed]
theorem panelSetup : Statement (.panelSetup) := by simp [Statement, Instr.wellFormed]
theorem writeImage : Statement (.writeImage) := by simp [Statement, Instr.wellFormed]
theorem fillImage : Statement (.fillImage) := by simp [Statement, Instr.wellFormed]
theorem readImage : Statement (.readImage) := by simp [Statement, Instr.wellFormed]
theorem readPanel : Statement (.readPanel) := by simp [Statement, Instr.wellFormed]
theorem loadWaveform : Statement (.loadWaveform) := by simp [Statement, Instr.wellFormed]
theorem commitWaveform : Statement (.commitWaveform) := by simp [Statement, Instr.wellFormed]
theorem eraseWaveform : Statement (.eraseWaveform) := by simp [Statement, Instr.wellFormed]
theorem listWaveforms : Statement (.listWaveforms) := by simp [Statement, Instr.wellFormed]
theorem setBands : Statement (.setBands) := by simp [Statement, Instr.wellFormed]
theorem setSensor : Statement (.setSensor) := by simp [Statement, Instr.wellFormed]
theorem sampleNow : Statement (.sampleNow) := by simp [Statement, Instr.wellFormed]
theorem sensorTimerExpiry : Statement (.sensorTimerExpiry) := by simp [Statement, Instr.wellFormed]
theorem sensorCycleEnd (word : SensorWord) : Statement (.sensorCycleEnd word) := by simp [Statement, Instr.wellFormed]
theorem gapEnd : Statement (.gapEnd) := by simp [Statement, Instr.wellFormed]
theorem timebaseTick : Statement (.timebaseTick) := by simp [Statement, Instr.wellFormed]
theorem startUpdate : Statement (.startUpdate) := by simp [Statement, Instr.wellFormed]
theorem cancelUpdate : Statement (.cancelUpdate) := by simp [Statement, Instr.wellFormed]
theorem queryQueue : Statement (.queryQueue) := by simp [Statement, Instr.wellFormed]
theorem queryTiles : Statement (.queryTiles) := by simp [Statement, Instr.wellFormed]
theorem markTiles : Statement (.markTiles) := by simp [Statement, Instr.wellFormed]
theorem setPolicy : Statement (.setPolicy) := by simp [Statement, Instr.wellFormed]
theorem stopAll : Statement (.stopAll) := by simp [Statement, Instr.wellFormed]
theorem querySlots : Statement (.querySlots) := by simp [Statement, Instr.wellFormed]
theorem setRails : Statement (.setRails) := by simp [Statement, Instr.wellFormed]
theorem railResume : Statement (.railResume) := by simp [Statement, Instr.wellFormed]
theorem setNotices : Statement (.setNotices) := by simp [Statement, Instr.wellFormed]
theorem fetchNotices : Statement (.fetchNotices) := by simp [Statement, Instr.wellFormed]
theorem waitUpdate : Statement (.waitUpdate) := by simp [Statement, Instr.wellFormed]
theorem waitTimeCheckExpiry : Statement (.waitTimeCheckExpiry) := by simp [Statement, Instr.wellFormed]
theorem attnPulseEnd : Statement (.attnPulseEnd) := by simp [Statement, Instr.wellFormed]
theorem pwrGoodActive : Statement (.pwrGoodActive) := by simp [Statement, Instr.wellFormed]
theorem rampTimerExpiry : Statement (.rampTimerExpiry) := by simp [Statement, Instr.wellFormed]
theorem pwrGoodLoss : Statement (.pwrGoodLoss) := by simp [Statement, Instr.wellFormed]
theorem dischargeTimerExpiry : Statement (.dischargeTimerExpiry) := by simp [Statement, Instr.wellFormed]
theorem frameStart : Statement (.frameStart) := by simp [Statement, Instr.wellFormed]
theorem entryExamination : Statement (.entryExamination) := by simp [Statement, Instr.wellFormed]
theorem frameEnd : Statement (.frameEnd) := by simp [Statement, Instr.wellFormed]
theorem frameByteReceived (byte : Byte) : Statement (.frameByteReceived byte) := by simp [Statement, Instr.wellFormed]

end Sys2Proof.Laws.OperandsWellFormed
end

