-- ==== Sys2Proof/Laws/Slots.lean ====
section
/-! SUPPORT. What the reads and writes of the slot table, the tile table and the waveform sets give. -/

namespace Sys2Proof.Machine

/-! ### The slot table -/

theorem FrameEngine.mem_active (f : FrameEngine) (i : Fin 16) (sl : Slot) :
    (i, sl) ∈ f.active ↔ f.slots[i] = some sl := by
  unfold FrameEngine.active
  rw [List.mem_filterMap]
  constructor
  · rintro ⟨j, -, hj⟩
    rw [Option.map_eq_some_iff] at hj
    obtain ⟨u, hu, he⟩ := hj
    cases he
    exact hu
  · intro h
    exact ⟨i, List.mem_finRange i, by rw [h]; rfl⟩

theorem FrameEngine.activeCount_eq_zero (f : FrameEngine) :
    f.activeCount = 0 ↔ ∀ i : Fin 16, f.slots[i] = none := by
  rw [FrameEngine.activeCount, List.length_eq_zero_iff, List.eq_nil_iff_forall_not_mem]
  constructor
  · intro h i
    cases hs : f.slots[i] with
    | none => rfl
    | some sl => exact absurd ((f.mem_active i sl).2 hs) (h _)
  · rintro h ⟨i, sl⟩ hm
    rw [f.mem_active, h i] at hm
    cases hm

theorem FrameEngine.activeCount_le (f : FrameEngine) : f.activeCount ≤ 16 := by
  unfold FrameEngine.activeCount FrameEngine.active
  exact (List.length_filterMap_le _ _).trans (by simp)

theorem State.quiet_iff (s : State) :
    s.quiet = true ↔ (∀ i : Fin 16, s.frame.slots[i] = none) ∧ s.sched.queue = [] := by
  rw [← FrameEngine.activeCount_eq_zero]
  simp [State.quiet]

theorem FrameEngine.users_ne_zero (f : FrameEngine) (m : Mode) (b : Fin 8) :
    f.users m b ≠ 0 ↔ ∃ (i : Fin 16) (sl : Slot), f.slots[i] = some sl ∧ sl.effective = m ∧ sl.band = b := by
  rw [FrameEngine.users, ← Nat.pos_iff_ne_zero, List.countP_pos_iff]
  constructor
  · rintro ⟨⟨i, sl⟩, hm, hp⟩
    simp only [Bool.and_eq_true, decide_eq_true_eq] at hp
    exact ⟨i, sl, (f.mem_active i sl).1 hm, hp⟩
  · rintro ⟨i, sl, hs, hp⟩
    exact ⟨(i, sl), (f.mem_active i sl).2 hs, by simpa using hp⟩

theorem FrameEngine.freeSlot_eq_some (f : FrameEngine) (i : Fin 16) :
    f.freeSlot = some i ↔ f.slots[i] = none ∧ ∀ j < i, f.slots[j] ≠ none := by
  unfold FrameEngine.freeSlot
  rw [List.find?_eq_some_iff_getElem]
  constructor
  · rintro ⟨hi, n, hn, he, hl⟩
    simp only [List.length_finRange] at hn
    simp only [List.getElem_finRange] at he
    have hv : n = i.val := by simpa using congrArg Fin.val he
    refine ⟨by simpa using hi, fun j hj => ?_⟩
    have := hl j.val (by omega)
    simpa [Option.isSome_iff_ne_none] using this
  · rintro ⟨hi, hl⟩
    refine ⟨by simpa using hi, i.val, by simp, by simp, fun j hj => ?_⟩
    have := hl ⟨j, by omega⟩ hj
    simpa [Option.isSome_iff_ne_none] using this

theorem FrameEngine.freeSlot_isSome (f : FrameEngine) :
    f.freeSlot.isSome = true ↔ ∃ i : Fin 16, f.slots[i] = none := by
  unfold FrameEngine.freeSlot
  rw [List.find?_isSome]
  simp

theorem FrameEngine.slots_setSlot (f : FrameEngine) (i j : Fin 16) (v : Option Slot) :
    (f.setSlot i v).slots[j] = if i = j then v else f.slots[j] := by
  simp only [FrameEngine.setSlot, Fin.getElem_fin, Vector.getElem_set, Fin.val_inj]

/-- A tag is carried by a pending entry or an active slot. -/
theorem State.carries_iff (s : State) (t : Tag) : s.carries t = true ↔
    (∃ e ∈ s.sched.queue, e.tag = t) ∨ ∃ (i : Fin 16) (sl : Slot), s.frame.slots[i] = some sl ∧ sl.tag = t := by
  simp only [State.carries, Bool.or_eq_true, List.any_eq_true, decide_eq_true_eq, Prod.exists,
    FrameEngine.mem_active]

/-! ### The tile table -/

@[simp] theorem State.length_mapTiles (s : State) (t : TileRect) (f : Nat → Nat → TileRecord → TileRecord) :
    (s.mapTiles t f).ghost.tiles.length = s.ghost.tiles.length := by simp [State.mapTiles]

/-- A tile of the grid after a change of the tiles of a rectangle. -/
theorem State.tile_mapTiles (s : State) (t : TileRect) (f : Nat → Nat → TileRecord → TileRecord) (i j : Nat)
    (hl : s.ghost.tiles.length = s.pixel.tileCols * s.pixel.tileRows) (hi : i < s.pixel.tileCols)
    (hj : j < s.pixel.tileRows) :
    (s.mapTiles t f).tile i j = if t.has i j = true then f i j (s.tile i j) else s.tile i j := by
  have hk : j * s.pixel.tileCols + i < s.ghost.tiles.length := by
    rw [hl]
    calc j * s.pixel.tileCols + i < j * s.pixel.tileCols + s.pixel.tileCols := by omega
      _ = s.pixel.tileCols * (j + 1) := by ring
      _ ≤ s.pixel.tileCols * s.pixel.tileRows := Nat.mul_le_mul_left _ hj
  have hm : (j * s.pixel.tileCols + i) % s.pixel.tileCols = i := by
    rw [Nat.mul_comm, Nat.mul_add_mod, Nat.mod_eq_of_lt hi]
  have hd : (j * s.pixel.tileCols + i) / s.pixel.tileCols = j := by
    rw [Nat.mul_comm, Nat.mul_add_div (by omega), Nat.div_eq_of_lt hi, Nat.add_zero]
  simp [State.tile, State.mapTiles, List.getD_eq_getElem?_getD, List.getElem?_eq_getElem hk, hm, hd]

/-- A tile of the grid after the tiles of a hull are released. -/
theorem State.tile_releaseTiles (s : State) (h : TileRect) (c : Option Condition) (i j : Nat)
    (hl : s.ghost.tiles.length = s.pixel.tileCols * s.pixel.tileRows) (hi : i < s.pixel.tileCols)
    (hj : j < s.pixel.tileRows) : (s.releaseTiles h c).tile i j =
      if h.has i j = true then
        { s.tile i j with owner := none, rest := 0, condition := c.getD (s.tile i j).condition }
      else s.tile i j :=
  s.tile_mapTiles h _ i j hl hi hj

/-! ### The end of a slot -/

/-- The frame engine once a slot has ended: the slot FREE and out of the admission list. -/
theorem State.finishSlot_frame (s : State) (i : Fin 16) (sl : Slot) (o : UpdateOutcome) (n : Nat) :
    (s.finishSlot i sl o n).frame =
      { s.frame.setSlot i none with admissions := s.frame.admissions.filter (· ≠ i) } := by
  simp [State.finishSlot, FrameEngine.setSlot]

/-- The pixel store once a slot has ended: its drive set committed where it is done, set back where it is not. -/
theorem State.finishSlot_pixel (s : State) (i : Fin 16) (sl : Slot) (o : UpdateOutcome) (n : Nat) :
    (s.finishSlot i sl o n).pixel =
      if o = .done then { s.pixel with believed := s.pixel.believed.paint (s.pixel.driveSet sl) s.pixel.next.level }
      else { s.pixel with next := s.pixel.next.paint (s.pixel.driveSet sl) s.pixel.believed.level } := by
  simp [State.finishSlot]

/-- The tiles once a slot has ended: those of its hull released. -/
theorem State.finishSlot_ghost (s : State) (i : Fin 16) (sl : Slot) (o : UpdateOutcome) (n : Nat) :
    (s.finishSlot i sl o n).ghost = (s.releaseTiles sl.hull
      (if o = .done then (if sl.effective = .clear then some .known else none) else some .unknown)).ghost := by
  by_cases h : o = .done <;> simp [State.finishSlot, State.releaseTiles, State.mapTiles, h]

/-- What a slot becomes at a frame end: nothing of it where it is FREE, its end or its next frame otherwise. -/
theorem State.advanceSlot_cases (s : State) (i : Fin 16) :
    (s.frame.slots[i] = none ∧ s.advanceSlot i = s) ∨
    ∃ sl, s.frame.slots[i] = some sl ∧
      (sl.length ≤ sl.index + 1 ∧ s.advanceSlot i = s.finishSlot i sl .done sl.length ∨
        sl.index + 1 < sl.length ∧ sl.phase = .stopping ∧ s.advanceSlot i = s.finishSlot i sl .aborted (sl.index + 1) ∨
        sl.index + 1 < sl.length ∧ sl.phase = .driving ∧
          s.advanceSlot i = { s with frame := s.frame.setSlot i (some { sl with index := sl.index + 1 }) }) := by
  cases h : s.frame.slots[i] with
  | none => exact .inl ⟨rfl, by simp only [State.advanceSlot, h]⟩
  | some sl =>
    refine .inr ⟨sl, rfl, ?_⟩
    by_cases hl : sl.length ≤ sl.index + 1
    · exact .inl ⟨hl, by simp only [State.advanceSlot, h, if_pos hl]⟩
    · right
      have hlt : sl.index + 1 < sl.length := by omega
      cases hp : sl.phase with
      | driving => exact .inr ⟨hlt, rfl, by simp only [State.advanceSlot, h, if_neg hl, hp]⟩
      | stopping => exact .inl ⟨hlt, rfl, by simp only [State.advanceSlot, h, if_neg hl, hp]⟩

/-- What an examination of an entry answers. -/
theorem State.examine_cases (s : State) (n : Nat) (e : PendingEntry) :
    s.examine n e = s.holdEntry n ∨
    s.admissible n e = true ∧
      ((∃ o eff esc, s.plan e s.temp.band = .refused o eff esc ∧ s.examine n e = s.refuseEntry n e o eff esc) ∨
        ∃ i eff esc, s.frame.freeSlot = some i ∧ s.plan e s.temp.band = .drive eff esc ∧
          s.wave.holds eff s.temp.band = false ∧ s.examine n e = s.enterEntry n i e eff esc) := by
  cases ha : s.admissible n e with
  | false => exact .inl (by simp only [State.examine, ha])
  | true =>
    cases hf : s.frame.freeSlot with
    | none => exact .inl (by simp only [State.examine, ha, hf])
    | some i =>
      cases hp : s.plan e s.temp.band with
      | refused o eff esc =>
        exact .inr ⟨rfl, .inl ⟨o, eff, esc, rfl, by simp only [State.examine, ha, hf, hp]⟩⟩
      | drive eff esc =>
        cases hh : s.wave.holds eff s.temp.band with
        | true => exact .inl (by simp [State.examine, ha, hf, hp, hh])
        | false => exact .inr ⟨rfl, .inr ⟨i, eff, esc, rfl, rfl, hh, by simp [State.examine, ha, hf, hp, hh]⟩⟩

/-- What the end of an admission pass does. -/
theorem State.settlePass_cases (s : State) :
    s.settlePass = s ∨ ∃ n, s.frame.phase = .pass n ∧ s.sched.queue.length ≤ n ∧ s.settlePass = s.concludeStart := by
  cases h : s.frame.phase with
  | pass n =>
    by_cases hl : s.sched.queue.length ≤ n
    · exact .inr ⟨n, rfl, hl, by simp only [State.settlePass, h, if_pos hl]⟩
    · exact .inl (by simp only [State.settlePass, h, if_neg hl])
  | _ => exact .inl (by simp only [State.settlePass, h])

/-! ### The rails -/

/-- When a PWR_GOOD active at the entry to RISING waits to be found. -/
theorem State.pwrGoodDue_iff (s : State) :
    s.pwrGoodDue = true ↔ (∃ n, s.rail.state = .rising (n + 1)) ∧ s.rail.pwrGood = true := by
  cases h : s.rail.state with
  | rising n => cases n <;> simp [State.pwrGoodDue, h]
  | _ => simp [State.pwrGoodDue, h]

/-- What a millisecond does: it steps the timers and, where a PWR_GOOD that was active at the entry to RISING is found in it,
enters ON. -/
theorem execTimebaseTick_cases (s : State) :
    execTimebaseTick s = .next s.stepTimers ∨
    (∃ n, s.rail.state = .rising (n + 2)) ∧ s.rail.pwrGood = true ∧ execTimebaseTick s = .next s.stepTimers.enterOn := by
  cases h : s.stepTimers.pwrGoodDue with
  | false => exact .inl (by simp [execTimebaseTick, h])
  | true =>
    obtain ⟨⟨n, hn⟩, hp⟩ := (State.pwrGoodDue_iff _).1 h
    refine .inr ⟨?_, hp, by simp [execTimebaseTick, h]⟩
    cases hr : s.rail.state with
    | rising m =>
      simp only [State.stepTimers, hr, RailState.tick, RailState.rising.injEq] at hn
      exact ⟨n, by rw [show m = n + 2 by omega]⟩
    | _ => simp [State.stepTimers, hr, RailState.tick] at hn

/-! ### The waveform sets -/

/-- Two stores that agree on the staging buffer agree on the image that stands in it and on its checks. -/
theorem WaveformStore.image_congr {w v : WaveformStore} (h : w.staging = v.staging) :
    w.imageFault = v.imageFault ∧ w.stagingBytes = v.stagingBytes ∧ w.imageSequences = v.imageSequences ∧
    w.stagingByte = v.stagingByte := by
  cases w; cases v; cases h
  exact ⟨rfl, rfl, rfl, rfl⟩

/-- What an event that frees slots does to the store: nothing, or the installation of the held commit with its notice. -/
theorem State.installHeld_cases (freed : List Slot) (s : State) :
    s.installHeld freed = s ∨ ∃ h, s.wave.held = some h ∧ (∃ sl ∈ freed, sl.effective = h.mode ∧ sl.band = h.band) ∧
      s.frame.users h.mode h.band = 0 ∧ s.installHeld freed = ({ s with wave :=
        { s.wave.putSet h.mode h.band (some (s.wave.imageSet h.charges h.crc)) with held := none } } : State).raise .commit := by
  cases hh : s.wave.held with
  | none => exact .inl (by simp only [State.installHeld, hh])
  | some h =>
    by_cases hc : freed.any (fun sl => sl.effective = h.mode && sl.band = h.band) ∧ s.frame.users h.mode h.band = 0
    · refine .inr ⟨h, rfl, by simpa using hc.1, hc.2, ?_⟩
      simp only [State.installHeld, hh]
      exact if_pos hc
    · refine .inl ?_
      simp only [State.installHeld, hh]
      exact if_neg hc

theorem setPlace_inj {m m' : Mode} {b b' : Fin 8} (h : (setPlace m b).val = (setPlace m' b').val) :
    m = m' ∧ b = b' := by
  cases m <;> cases m' <;> simp only [setPlace, Mode.code] at h <;>
    first | exact ⟨rfl, by omega⟩ | (exfalso; omega)

/-- A set of the store after the set of a mode and band is replaced. -/
theorem WaveformStore.set?_putSet (w : WaveformStore) (m m' : Mode) (b b' : Fin 8) (v : Option WaveformSet) :
    (w.putSet m b v).set? m' b' = if m' = m ∧ b' = b then v else w.set? m' b' := by
  simp only [WaveformStore.set?, WaveformStore.putSet, Fin.getElem_fin, Vector.getElem_set]
  by_cases h : m' = m ∧ b' = b
  · rw [if_pos (by rw [h.1, h.2]), if_pos h]
  · rw [if_neg (fun e => h (let q := setPlace_inj e; ⟨q.1.symm, q.2.symm⟩)), if_neg h]

@[simp] theorem WaveformStore.putSet_staging (w : WaveformStore) (m : Mode) (b : Fin 8) (v : Option WaveformSet) :
    (w.putSet m b v).staging = w.staging := rfl
@[simp] theorem WaveformStore.putSet_held (w : WaveformStore) (m : Mode) (b : Fin 8) (v : Option WaveformSet) :
    (w.putSet m b v).held = w.held := rfl

end Sys2Proof.Machine
end

