-- ==== Sys2Proof/Laws/Taking.lean ====
section
/-! SUPPORT. What the taking of a request answers, said once for every request. -/

namespace Sys2Proof.Machine

theorem takeFrame_of_offers {accepts : Byte → Bool} {s : State} {f : Frame} (h : s.offers f)
    (ha : accepts f.kind = true) : takeFrame accepts s = some (f, s.released) := by
  obtain ⟨hf, hc⟩ := h
  unfold takeFrame
  cases hl : s.link.frames with
  | nil => simp [hl] at hf
  | cons g gs =>
    obtain rfl : g = f := by simpa [hl] using hf
    simp [ha, hc, State.released, hl]

/-- The taking of a request that can be taken. -/
theorem takeRequest_of_offers {accepts : Byte → Bool} {body : Frame → State → Answer} {s : State} {f : Frame}
    (h : s.offers f) (ha : accepts f.kind = true) :
    takeRequest accepts body s = .next (answerFrame f (body f s.released)) := by
  rw [takeRequest, takeFrame_of_offers h ha]

theorem request_of_offers {kind : Byte} {body : Frame → State → Answer} {s : State} {f : Frame}
    (h : s.offers f) (hk : f.kind = kind) : request kind body s = .next (answerFrame f (body f s.released)) :=
  takeRequest_of_offers h (by simp [hk])

/-- Everything the taking of a request can do. -/
theorem takeRequest_cases (accepts : Byte → Bool) (body : Frame → State → Answer) (s : State) :
    (∃ f, s.offers f ∧ accepts f.kind = true ∧
      takeRequest accepts body s = .next (answerFrame f (body f s.released))) ∨
    takeRequest accepts body s = .next s := by
  cases h : takeFrame accepts s with
  | none => exact .inr (by rw [takeRequest, h])
  | some p =>
    obtain ⟨f, t⟩ := p
    left
    unfold takeFrame at h
    cases hl : s.link.frames with
    | nil => simp [hl] at h
    | cons g gs =>
      rw [hl] at h
      simp only at h
      split at h
      · rename_i hc
        simp only [Bool.and_eq_true] at hc
        obtain rfl : g = f := by simpa using (congrArg (Option.map Prod.fst) h)
        exact ⟨g, ⟨by simp [hl], hc.2⟩, hc.1, takeRequest_of_offers ⟨by simp [hl], hc.2⟩ hc.1⟩
      · cases h

@[simp] theorem fixedLength_of_length {n : Nat} {body : Frame → State → Answer} {f : Frame} {s : State}
    (h : f.payload.length = n) : fixedLength n body f s = body f s := by simp [fixedLength, h]

theorem fixedLength_of_ne {n : Nat} {body : Frame → State → Answer} {f : Frame} {s : State}
    (h : f.payload.length ≠ n) : fixedLength n body f s = refuse .badLength s := by simp [fixedLength, h]

/-! An answer with its reply and no report ends in the reply alone. -/

@[simp] theorem answerFrame_answer (f : Frame) (st : Status) (p : List Byte) (s : State) :
    answerFrame f (answer st p s) = s.replied f st p := rfl
@[simp] theorem answerFrame_refuse (f : Frame) (st : Status) (s : State) :
    answerFrame f (refuse st s) = s.replied f st [] := rfl
@[simp] theorem answerFrame_answerOk (f : Frame) (p : List Byte) (s : State) :
    answerFrame f (answerOk p s) = s.replied f .ok p := rfl

/-! What the release of the oldest frame leaves as it was. -/

@[simp] theorem State.released_pixel (s : State) : s.released.pixel = s.pixel := rfl
@[simp] theorem State.released_wave (s : State) : s.released.wave = s.wave := rfl
@[simp] theorem State.released_temp (s : State) : s.released.temp = s.temp := rfl
@[simp] theorem State.released_sched (s : State) : s.released.sched = s.sched := rfl
@[simp] theorem State.released_ghost (s : State) : s.released.ghost = s.ghost := rfl
@[simp] theorem State.released_frame (s : State) : s.released.frame = s.frame := rfl
@[simp] theorem State.released_rail (s : State) : s.released.rail = s.rail := rfl
@[simp] theorem State.released_notice (s : State) : s.released.notice = s.notice := rfl
@[simp] theorem State.released_pending (s : State) : s.released.pending = s.pending := rfl
@[simp] theorem State.released_framing (s : State) : s.released.link.framing = s.link.framing := rfl
@[simp] theorem State.released_frames (s : State) : s.released.link.frames = s.link.frames.tail := rfl
@[simp] theorem State.released_replies (s : State) : s.released.link.replies = s.link.replies := rfl
@[simp] theorem State.released_attn (s : State) : s.released.link.attn = s.link.attn := rfl

end Sys2Proof.Machine
end

