-- ==== Sys2Proof/Tests/Slice0.lean ====
section
/-! SUPPORT. Tests of single steps, with results taken from the reference's examples and rules, and witnesses that the hypotheses
of the statements can be met. -/

namespace Sys2Proof.Machine.Tests

/-! ### States to test on -/

/-- What a function of the next state gives, none where the command does not answer a next state. -/
def got {α : Type} (f : State → α) (c : Instr) (s : State) : Option α :=
  match exec c s with
  | .next t => some (f t)
  | _ => none

/-- The part with one frame in its receive buffer. -/
def offering (s : State) (kind : Byte) (payload : List Byte) : State :=
  { s with link.frames := [{ kind := kind, tag := 0x1234#16, payload := payload }] }

/-- The status and payload of the newest reply. -/
def reply (s : State) : Option (Status × List Byte) := s.link.replies.getLast?.map fun r => (r.status, r.payload)

/-- A DUO set of two frames: levels that stay are kept at rest, every other pair is darkened in frame 0, charge +1. -/
def smallSet : WaveformSet :=
  { length := 2, table := (List.range 256).map fun n => if n / 16 = n % 16 then 0 else 1,
    sequences := [[.rest, .rest], [.darken, .rest]], charges := [0, 1], crc := 0#16 }

/-- A panel of 64 by 64 pixels, four tiles, with a DUO set of band 0, the rails OFF. -/
def panel : State :=
  { State.reset with
    pixel := .setup 64 64,
    ghost.tiles := List.replicate 4 { TileRecord.fresh with condition := .known },
    wave := WaveformStore.reset.putSet .duo 0 (some smallSet) }

/-- An entry that asks for DUO over the 8 by 8 pixels at the origin. -/
def entry : PendingEntry :=
  { tag := 0x0051#16, rect := ⟨0, 0, 8, 8⟩, hull := ⟨0, 0, 1, 1⟩, mode := .duo, policy := .auto, recovery := false }

/-- A slot that drives that entry. -/
def slot : Slot :=
  { phase := .driving, tag := 0x0051#16, requested := .duo, effective := .duo, escalated := false, recovery := false,
    band := 0, rect := ⟨0, 0, 8, 8⟩, hull := ⟨0, 0, 1, 1⟩, index := 0, length := 2, changed := 1 }

/-- The rails ON, slot 0 driving its pixel (0, 0) from 15 to 0, before a frame start. -/
def driving : State :=
  { panel with
    rail.state := .on,
    pixel.next := [(0, 0#4)],
    ghost.tiles := { TileRecord.fresh with condition := .known, owner := some 0 } ::
      List.replicate 3 { TileRecord.fresh with condition := .known },
    frame := { FrameEngine.reset.setSlot 0 (some slot) with admissions := [0], phase := .between } }

/-! ### The interface -/

theorem test_wellFormed_refuses_sync : (Instr.badSync 0xC3#8).wellFormed = false := by decide
theorem test_wellFormed_admits_other : (Instr.badSync 0xC2#8).wellFormed = true := by decide
theorem test_decode_spells_none : decodeTableWord 8 1 = none := by decide

theorem test_step_takes_front : (match step { State.reset with pending := [.transactionPrefix 0x01#8, .gapEnd] } with
    | .next t => t.link.framing = .header [] && t.pending = [.gapEnd]
    | _ => false) = true := by decide

/-! ### Receipt (chapter 9) -/

theorem test_prefix_opens_read : got (fun t => t.link.framing) (.transactionPrefix 0x02#8) .reset = some (.read 0 false) := by
  decide
theorem test_prefix_other_ignored : got (fun t => t.link.framing) (.transactionPrefix 0x03#8) .reset = some .ignore := by
  decide
theorem test_badSync_replies : got (fun t => (t.link.framing, t.link.replies.map Reply.bytes)) (.badSync 0x00#8)
    { State.reset with link.framing := .header [] } =
    some (.discard, [[0x3C#8, 0x00#8, 0xFF#8, 0xFF#8, 31#8, 1#8, 0#8, 0#8]]) := by decide

/-- The header of a frame with kind 0x40, tag 0x1234 and the length given, short of its last byte. -/
def headerWith (lo : Byte) : State :=
  { State.reset with link.framing := .header [0xC3#8, 0x40#8, 0x34#8, 0x12#8, lo] }

theorem test_header_reserves : got (fun t => (t.link.framing, t.link.rxFree, t.link.hold)) (.headerTaken 0x10#8)
    (headerWith 0x0A#8) = some (.payload 0x40#8 0x1234#16 4106 [], 12272, false) := by decide
theorem test_header_too_long_skips : got (fun t => (t.link.framing, reply t)) (.headerTaken 0x10#8) (headerWith 0x11#8) =
    some (.skip 4113, some (.badLength, [])) := by decide
theorem test_frame_completes : got (fun t => t.link.frames) (.frameComplete 0xBB#8)
    { State.reset with link.framing := .payload 0x41#8 0x0007#16 2 [0xAA#8] } =
    some [{ kind := 0x41#8, tag := 0x0007#16, payload := [0xAA#8, 0xBB#8] }] := by decide
theorem test_skip_ends : got (fun t => t.link.framing) (.skipEnd 0#8) { State.reset with link.framing := .skip 1 } =
    some (.header []) := by decide
theorem test_byte_counts_header : got (fun t => t.link.framing) (.frameByteReceived 0x40#8)
    { State.reset with link.framing := .header [0xC3#8] } = some (.header [0xC3#8, 0x40#8]) := by decide
theorem test_release_cuts : got (fun t => (t.link.framing, t.link.replies.map Reply.bytes)) .selectRelease
    { State.reset with link.framing := .header [0xC3#8, 0x40#8, 0x34#8] } =
    some (.selectWait, [[0x3C#8, 0x40#8, 0xFF#8, 0xFF#8, 31#8, 1#8, 0#8, 1#8]]) := by decide

/-! ### Replies (chapter 9) -/

theorem test_replySent_takes_head : got (fun t => (t.link.replies.length, t.link.attn)) .replySent
    { State.reset with
      link := ⟨.read 6 false, [], [⟨1#8, 1#16, .ok, []⟩], false, true⟩ } = some (0, false) := by decide
theorem test_replySent_waits_for_last : got (fun t => (t.link.replies.length, t.link.framing)) .replySent
    { State.reset with
      link := ⟨.read 5 false, [], [⟨1#8, 1#16, .ok, []⟩], false, true⟩ } = some (1, .read 5 false) := by decide
theorem test_waitReply_placed : got (fun t => (t.notice.ended, t.link.replies)) .waitReplyPlaced
    { State.reset with notice.ended := [⟨⟨0x0400#16, 0x0321#16, 5⟩, false⟩] } =
    some ([], [⟨0x82#8, 0x0400#16, .ok, [0x21#8, 0x03#8, 1#8]⟩]) := by decide

/-! ### Whole-part requests -/

theorem test_unknownKind : got reply .unknownKind (offering .reset 0x7F#8 [1#8]) = some (some (.unknownKind, [])) := by decide
theorem test_status_after_reset : got reply .status (offering .reset 0x01#8 []) = some (some (.ok,
    [0#8, 0#8, 0#8, 0#8, 0#8, 0#8, 0x00#8, 0x40#8, 0x00#8, 0x80#8, 0#8, 0#8, 0#8, 0#8, 0x00#8, 0x80#8, 0x00#8, 0x80#8,
     0#8, 0#8, 0#8, 0#8, 0#8, 0#8])) := by decide
theorem test_softReset : got (fun t => (t.rail.state, t.pixel.next, t.ghost.tiles.head?.map TileRecord.condition, t.link.attn))
    .resetPart (offering driving 0x02#8 []) = some (.falling 30, [], some .unknown, true) := by decide
theorem test_powerOn_keeps_input : got (fun t => (t.rail.pwrGood, t.pixel.setUp)) .powerOnReset
    { panel with rail.pwrGood := true } = some (true, false) := by decide

/-! ### The panel (1.6) -/

/-- 1.6.1: width 1448, height 1072, frame period 6000. -/
theorem test_panelSetup : got reply .panelSetup (offering .reset 0x10#8 [0xA8#8, 0x05#8, 0x30#8, 0x04#8, 0x70#8, 0x17#8]) =
    some (some (.ok, [0xA8#8, 0x05#8, 0x30#8, 0x04#8, 0x40#8, 0x1F#8, 46#8, 34#8])) := by decide

/-- L8 over two pixels of a row: a byte 0x9C gives level 9, a byte 0x0F level 0 (1.6.2). -/
theorem test_writeImage : got (fun t => (t.pixel.image.level 3 2, t.pixel.image.level 4 2, reply t)) .writeImage
    (offering panel 0x11#8 [2#8, 0#8, 3#8, 0#8, 2#8, 0#8, 2#8, 0#8, 1#8, 0#8, 0x9C#8, 0x0F#8]) =
    some (9#4, 0#4, some (.ok, [2#8, 0#8, 0#8, 0#8])) := by decide
theorem test_writeImage_odd_x : got reply .writeImage
    (offering panel 0x11#8 [0#8, 0#8, 3#8, 0#8, 0#8, 0#8, 2#8, 0#8, 1#8, 0#8, 0x9C#8]) = some (some (.badRect, [])) := by decide
theorem test_fillImage : got (fun t => (t.pixel.image, reply t)) .fillImage
    (offering panel 0x12#8 [63#8, 0#8, 1#8, 0#8, 1#8, 0#8, 1#8, 0#8, 3#8, 0#8]) =
    some ([(2111, 3#4)], some (.ok, [3#8, 0#8, 1#8, 0#8, 0#8, 0#8])) := by decide
theorem test_readImage_empty : got reply .readImage (offering panel 0x13#8 (List.replicate 8 0#8)) =
    some (some (.emptyRect, [])) := by decide

/-- 1.6.3: nine levels of an odd width, packed on across rows. -/
theorem test_readPanel : got reply .readPanel (offering { panel with pixel.believed :=
      [(10244, 0#4), (12290, 0#4), (12291, 10#4), (12292, 5#4), (14339, 0#4)] } 0x14#8
      [2#8, 0#8, 5#8, 0#8, 3#8, 0#8, 3#8, 0#8]) =
    some (some (.ok, [2#8, 0#8, 5#8, 0#8, 3#8, 0#8, 3#8, 0#8, 0xFF#8, 0x00#8, 0xA5#8, 0xF0#8, 0xF0#8])) := by decide

/-! ### Waveform sets (2.9) -/

/-- The check value of R29. -/
theorem test_crc : crc16 [0x31#8, 0x32#8, 0x33#8, 0x34#8, 0x35#8, 0x36#8, 0x37#8, 0x38#8, 0x39#8] = 0x29B1#16 := by decide +kernel
theorem test_quantize : quantize .tone4 12#4 = 10#4 ∧ quantize .duo 6#4 = 0#4 ∧ quantize .duo 12#4 = 15#4 := by decide
theorem test_loadWaveform : got (fun t => (t.wave.staging, reply t)) .loadWaveform
    (offering .reset 0x20#8 [0x04#8, 0x01#8, 0xAA#8, 0x00#8, 0xBB#8]) =
    some ([(260, 0xAA#8), (262, 0xBB#8)], some (.ok, [0x04#8, 0x01#8, 3#8, 0#8])) := by decide

/-- The staging buffer with the image of a DUO set of band 0, of two frames and one sequence with the bytes given. -/
def staged (s : State) (codes : Byte) : State :=
  { s with wave.staging := [(0, 3#8), (2, 2#8), (3, 1#8), (260, codes)] }

/-- A COMMIT_WAVEFORM of that image with the CRC given. -/
def committing (s : State) (codes crcLo crcHi : Byte) : State :=
  offering (staged s codes) 0x21#8 [3#8, 0#8, 0x05#8, 0x01#8, crcLo, crcHi]

/-- Sixty-four zeros, a run short enough for the kernel to take a CRC over. -/
def zeros : List Byte := List.replicate 64 0#8

theorem test_crc_of_zeros : zeros.foldl crcByte 0x695F#16 = 0x835B#16 ∧ zeros.foldl crcByte 0x835B#16 = 0xFD1F#16 ∧
    zeros.foldl crcByte 0xFD1F#16 = 0xF530#16 ∧ zeros.foldl crcByte 0xF530#16 = 0xDCB0#16 := by
  refine ⟨?_, ?_, ?_, ?_⟩ <;> decide +kernel

theorem test_staged_bytes (codes : Byte) (h : codes = 0x50#8 ∨ codes = 0x30#8) :
    (staged .reset codes).wave.stagingBytes 261 =
      [3#8, 0#8, 2#8, 1#8] ++ zeros ++ zeros ++ zeros ++ zeros ++ [codes] := by
  rcases h with rfl | rfl <;> decide +kernel

/-- The CRC of the image of 261 bytes with two DARKEN codes, as computed outside the model. -/
theorem test_crc_of_image : crc16 ((staged .reset 0x50#8).wave.stagingBytes 261) = 0xE004#16 := by
  have h : [3#8, 0#8, 2#8, 1#8].foldl crcByte 0xFFFF#16 = 0x695F#16 := by decide +kernel
  obtain ⟨h0, h1, h2, h3⟩ := test_crc_of_zeros
  rw [test_staged_bytes _ (.inl rfl), crc16]
  simp only [List.foldl_append, h, h0, h1, h2, h3]
  decide
theorem test_commit_checks : (staged .reset 0x50#8).wave.imageFault .duo 0 261 = none := by decide +kernel
theorem test_commit_charges : ((staged .reset 0x50#8).wave.imageSequences 2 1).map sequenceCharge = [2] := by decide +kernel
/-- Code 3 in frame 1 of sequence 0: reason 7, position 1. -/
theorem test_commit_bad_code : (staged .reset 0x30#8).wave.imageFault .duo 0 261 = some (7, 1) := by decide +kernel
theorem test_commit_bad_length : (staged .reset 0x50#8).wave.imageFault .duo 0 260 = some (5, 261) := by decide +kernel
theorem test_eraseWaveform : got (fun t => (t.wave.set? .duo 0, reply t)) .eraseWaveform (offering panel 0x22#8 [3#8, 0#8]) =
    some (none, some (.ok, [])) := by decide
theorem test_erase_in_use : got reply .eraseWaveform (offering driving 0x22#8 [3#8, 0#8]) = some (some (.inUse, [])) := by
  decide
theorem test_listWaveforms : got reply .listWaveforms (offering driving 0x23#8 []) =
    some (some (.ok, [1#8, 0#8, 0#8, 0#8, 3#8, 0#8, 2#8, 2#8, 0#8, 0#8, 1#8, 0#8])) := by decide

/-! ### Temperature (3.9) -/

/-- The part of 3.9.1 before its third cycle ends. -/
def warming : State :=
  { State.reset with temp := { TemperatureUnit.reset with
      cycle := .sampling, comparator := .change, reference := some true, boundaries := [5, 15, 30], band := 1,
      lastValid := some 248, status := .valid } }

theorem test_setBands : got (fun t => (t.temp.band, reply t)) .setBands (offering { State.reset with temp.lastValid := some 160 }
      0x30#8 [4#8, 0#8, 5#8, 0#8, 15#8, 0#8, 30#8, 0#8, 0#8, 0#8, 0#8, 0#8, 0#8, 0#8, 0#8, 0#8]) =
    some (1, some (.ok, [4#8, 1#8, 5#8, 0#8, 15#8, 0#8, 30#8, 0#8, 0#8, 0#8, 0#8, 0#8, 0#8, 0#8, 0#8, 0#8])) := by decide
theorem test_setSensor : got (fun t => (t.temp.timer, reply t)) .setSensor
    (offering .reset 0x31#8 [2#8, 2#8, 0#8, 0#8, 16#8, 99#8, 0xD0#8, 0x07#8]) =
    some (some 2000, some (.ok, [2#8, 2#8, 1#8, 1#8, 16#8, 15#8, 0xD0#8, 0x07#8])) := by decide
theorem test_setSensor_source_4 : got reply .setSensor (offering .reset 0x31#8 [4#8, 0#8, 1#8, 1#8, 0#8, 1#8, 10#8, 0#8]) =
    some (some (.badField, [])) := by decide
theorem test_sampleNow_drops : got reply .sampleNow (offering { State.reset with temp.cycle := .gap 5 } 0x32#8 []) =
    some (some (.ok, [0#8, 1#8])) := by decide
theorem test_sensorTimerExpiry : got (fun t => (t.temp.cycle, t.temp.timer)) .sensorTimerExpiry
    { State.reset with temp.timer := some 0 } = some (.sampling, some 1000) := by decide
theorem test_sensorCycleEnd_outside : got (fun t => (t.temp.band, t.temp.bandLatch, t.temp.noticeLatch, t.temp.reference,
      KindSet.mem .temp t.notice.kinds)) (.sensorCycleEnd 0x1040#16) warming =
    some (2, some 260, some 260, some false, true) := by decide
theorem test_sensorCycleEnd_fails : got (fun t => (t.temp.failures, t.temp.status, t.temp.cycle))
    (.sensorCycleEnd 0xFFFF#16) warming = some (1, .valid, .gap 10) := by decide
theorem test_gapEnd : got (fun t => t.temp.cycle) .gapEnd { State.reset with temp.cycle := .gap 0 } = some .ready := by decide
theorem test_tick_rests : got (fun t => (t.ghost.tiles.map TileRecord.rest, t.temp.timer)) .timebaseTick
    { State.reset with ghost.tiles := [⟨none, .known, 0, 0, 5⟩, ⟨some 3, .known, 0, 0, 5⟩] } =
    some ([6, 5], some 999) := by decide
theorem test_tick_finds_pwrGood : got (fun t => (t.rail.state, t.frame.phase, t.temp.fresh)) .timebaseTick
    { State.reset with rail := ⟨.rising 40, 40, 30, 50, true⟩, temp.fresh := true } = some (.on, .between, false) := by decide

/-! ### Updates and the queue (4.4) -/

/-- The panel of 4.4.1 with three entries waiting. -/
def wide : State := { panel with pixel := .setup 1000 700, sched.queue := [entry, entry, entry] }

theorem test_startUpdate_clips : got (fun t => (t.sched.queue.length, t.rail.state, reply t)) .startUpdate
    (offering wide 0x40#8 [0xD4#8, 0x03#8, 0xB2#8, 0x02#8, 50#8, 0#8, 40#8, 0#8, 3#8, 0#8]) =
    some (4, .rising 40, some (.queued, [3#8, 0#8, 0xD4#8, 0x03#8, 0xB2#8, 0x02#8, 20#8, 0#8, 10#8, 0#8, 30#8, 21#8, 2#8, 1#8])) := by
  decide
theorem test_startUpdate_off_panel : got reply .startUpdate
    (offering wide 0x40#8 [0xE8#8, 0x03#8, 0#8, 0#8, 50#8, 0#8, 40#8, 0#8, 3#8, 0#8]) = some (some (.emptyRect, [])) := by decide
/-- Two entries with tag 0x0030 (4.4.3). -/
def twoTagged : List PendingEntry := List.replicate 2 { entry with tag := 0x0030#16 }

theorem test_cancelUpdate : got (fun t => (t.sched.queue.length, t.notice.kinds, reply t)) .cancelUpdate
    (offering { State.reset with sched.queue := twoTagged ++ List.replicate 6 entry } 0x41#8 [0x30#8, 0#8]) = some (6, 8#9, some (.ok, [2#8, 0#8])) := by decide
theorem test_queryQueue : got reply .queryQueue (offering { State.reset with sched.queue := [entry] } 0x42#8 []) =
    some (some (.ok, [1#8, 0#8, 0#8, 0#8, 0x51#8, 0#8, 0#8, 0#8, 0#8, 0#8, 8#8, 0#8, 8#8, 0#8, 0#8, 0#8, 1#8, 1#8, 3#8, 0#8])) := by
  decide

/-! ### Tiles and plans (5.7) -/

/-- TABLE 5-10. -/
theorem test_increments : increment 8 1 = 1 ∧ increment 16 64 = 1 ∧ increment 16 65 = 2 ∧ increment 32 1024 = 32 ∧
    increment 32 128 = 4 ∧ increment 12 1 = 1 ∧ increment 0 1024 = 0 ∧ increment 255 1024 = 255 := by decide
theorem test_queryTiles : got reply .queryTiles (offering driving 0x50#8 [0#8, 0#8, 1#8, 1#8]) =
    some (some (.ok, [0#8, 0#8, 1#8, 1#8, 0#8, 1#8, 0#8, 0#8, 0#8, 0#8, 0xFF#8, 0xFF#8])) := by decide
theorem test_markTiles_skips_owned : got (fun t => (t.ghost.tiles.map TileRecord.condition, reply t)) .markTiles
    (offering driving 0x51#8 [0#8, 0#8, 2#8, 1#8, 0#8, 0#8]) =
    some ([.known, .unknown, .known, .known], some (.ok, [1#8, 0#8, 1#8, 0#8])) := by decide
theorem test_setPolicy_clamps : got reply .setPolicy
    (offering .reset 0x52#8 [0#8, 0#8, 0xFF#8, 0xFF#8, 0xFF#8, 0xFF#8, 1#8, 2#8, 3#8, 4#8, 5#8, 0#8, 1#8, 9#8]) =
    some (some (.ok, [1#8, 0#8, 0xFF#8, 0x7F#8, 0xD0#8, 0x07#8, 1#8, 2#8, 3#8, 4#8, 5#8, 0#8, 1#8, 0#8])) := by decide

/-- An entry before its examination: DUO over 64 pixels, one of which goes from 15 to 0. -/
def examining : State :=
  { panel with
    rail.state := .on, pixel.image := [(0, 0#4)], sched.queue := [entry],
    frame.phase := .pass 0 }

theorem test_examination_admits : got (fun t => (t.frame.slots[0].map Slot.changed, t.frame.admissions,
      t.ghost.tiles.head?, t.sched.queue, t.frame.driveActive)) .entryExamination examining =
    some (some 1, [0], some ⟨some 0, .known, 1, 1, 65535⟩, [], true) := by decide +kernel
theorem test_examination_waits : got (fun t => (t.frame.phase, t.sched.queue.length)) .entryExamination
    { examining with ghost.tiles := List.replicate 4 ⟨none, .known, 0, 0, 19⟩, sched.queue := [entry, entry] } =
    some (.pass 1, 2) := by decide +kernel

/-! ### Slots and frames (6.8) -/

theorem test_stopAll : got (fun t => (t.frame.slots[0].map Slot.phase, t.sched.queue, reply t)) .stopAll
    (offering { driving with sched.queue := [entry] } 0x60#8 []) = some (some .stopping, [], some (.ok, [1#8, 1#8])) := by
  decide +kernel
theorem test_querySlots : got (fun t => (reply t).map fun r => (r.2.length, r.2.take 6)) .querySlots
    (offering driving 0x61#8 []) = some (some (436, [0#8, 0#8, 1#8, 0#8, 0#8, 0xFF#8])) := by
  decide +kernel
theorem test_frameStart_drives : got (fun t => (t.frame.counter, t.frame.phase, t.frame.driveActive, t.driveCode 0 0))
    .frameStart driving = some (1#16, .driven, true, .darken) := by decide +kernel
theorem test_frameStart_lingers : got (fun t => (t.rail.state, t.frame.idle, t.frame.phase)) .frameStart
    { State.reset with rail := ⟨.on, 40, 30, 50, true⟩, frame := { FrameEngine.reset with idle := 49, phase := .between } } =
    some (.falling 30, 50, .stopped) := by decide

/-- The frame that `driving` awaits, with its slot at a frame index. -/
def inFrame (index : Nat) : State :=
  { driving with frame := { driving.frame.setSlot 0 (some { slot with index := index }) with
      phase := .driven, driveActive := true } }

theorem test_frameEnd_completes : got (fun t => (t.pixel.believed, t.ghost.tiles.head?.map TileRecord.rest,
      t.notice.records.map CompletionRecord.frames, t.notice.kinds)) .frameEnd (inFrame 1) =
    some ([(0, 0#4)], some 0, [2], 17#9) := by decide +kernel
theorem test_frameEnd_advances : got (fun t => (t.frame.slots[0].map Slot.index, t.pixel.believed, t.notice.kinds))
    .frameEnd (inFrame 0) = some (some 1, [], 0#9) := by decide +kernel

/-! ### The rails (7.7) -/

theorem test_setRails_clamps : got reply .setRails (offering .reset 0x70#8 [0x2C#8, 0x01#8, 30#8, 0#8, 50#8, 0#8]) =
    some (some (.ok, [255#8, 0#8, 30#8, 0#8, 50#8, 0#8])) := by decide
theorem test_railResume : got (fun t => (t.rail.state, reply t)) .railResume
    (offering { State.reset with rail.state := .faulted .ramp } 0x71#8 []) = some (.falling 30, some (.ok, [3#8, 1#8])) := by
  decide
theorem test_pwrGood_waits_for_tick : got (fun t => t.rail.state) .pwrGoodActive
    { State.reset with rail := ⟨.rising 40, 40, 30, 50, true⟩ } = some (.rising 40) := by decide
theorem test_pwrGood_enters_on : got (fun t => (t.rail.state, t.frame.phase, t.temp.fresh)) .pwrGoodActive
    { State.reset with rail.state := .rising 26, temp.fresh := true } = some (.on, .between, false) := by decide
theorem test_rampTimerExpiry : got (fun t => (t.rail.state, KindSet.mem .rail t.notice.kinds)) .rampTimerExpiry
    { State.reset with rail.state := .rising 0 } = some (.faulted .ramp, true) := by decide
theorem test_pwrGoodLoss : got (fun t => (t.rail.state, t.notice.records.map CompletionRecord.frames, t.sched.queue,
      t.pixel.next)) .pwrGoodLoss (inFrame 1) =
    some (.faulted .loss, [1], [⟨0x0051#16, ⟨0, 0, 32, 32⟩, ⟨0, 0, 1, 1⟩, .clear, .force, true⟩], []) := by decide +kernel
theorem test_discharge_passes_on : got (fun t => t.rail.state) .dischargeTimerExpiry
    { State.reset with rail := ⟨.falling 0, 255, 30, 50, false⟩, sched.queue := [entry] } = some (.rising 255) := by decide

/-! ### Notices and waits (8.7) -/

theorem test_setNotices : got (fun t => (t.notice.enables, reply t)) .setNotices
    (offering .reset 0x80#8 [0x11#8, 0xFE#8, 0#8, 0#8, 0#8, 1#8]) = some (17#9, some (.ok, [0x11#8, 0#8, 0#8, 1#8])) := by decide
/-- The notices of 11.2 after its tenth frame end: DONE and IDLE pending, one record. -/
def noticed : State :=
  { State.reset with
    notice.kinds := 17#9,
    notice.records := [⟨0x0301#16, some 0, .done, .duo, false, false, 2, 10, ⟨5, 3, 1, 1⟩⟩] }

theorem test_fetchNotices : got (fun t => (t.notice.kinds, t.notice.records, (reply t).map fun r => r.2.take 6)) .fetchNotices
    (offering noticed 0x81#8 [0x10#8, 0#8]) =
    some (0#9, [], some [0x11#8, 0#8, 0#8, 1#8, 0x01#8, 0x03#8]) := by decide
theorem test_waitUpdate_joins : got (fun t => (t.notice.waits, t.link.replies)) .waitUpdate
    (offering driving 0x82#8 [0x51#8, 0#8, 0x90#8, 0x01#8]) = some ([⟨0x1234#16, 0x0051#16, 2000⟩], []) := by decide
theorem test_waitUpdate_at_once : got reply .waitUpdate (offering driving 0x82#8 [0x52#8, 0#8, 0x90#8, 0x01#8]) =
    some (some (.ok, [0x52#8, 0#8, 0#8])) := by decide
theorem test_wait_times_out : got (fun t => (t.notice.waits, t.link.replies)) .waitTimeCheckExpiry
    { State.reset with notice.waits := [⟨0x0400#16, 0x0321#16, 0⟩] } =
    some ([], [⟨0x82#8, 0x0400#16, .timeout, [0x21#8, 0x03#8, 2#8]⟩]) := by decide
theorem test_attnPulseEnd : got (fun t => t.link.attn) .attnPulseEnd
    { State.reset with notice.mode := .pulse, link.attn := true } = some false := by decide

/-! ### Witnesses: invariants hold of states in which something happens -/

/-- The frame that `offering` puts in the receive buffer. -/
def sent (kind : Byte) (payload : List Byte) : Frame := { kind := kind, tag := 0x1234#16, payload := payload }

theorem offering_offers (s : State) (kind : Byte) (payload : List Byte) (h : s.canTake = true) :
    (offering s kind payload).offers (sent kind payload) := ⟨rfl, h⟩

theorem some_iff {p : Slot → Bool} (o : Option Slot) : (∃ sl, o = some sl ∧ p sl = true) ↔ o.any p = true := by
  cases o <;> simp

/-- The four invariants of the ledger, as a check that the kernel can carry out on a state. -/
theorem ledgerSound_of {s : State}
    (h1 : s.frame.admissions.Nodup ∧ ∀ i : Fin 16, i ∈ s.frame.admissions ↔ s.frame.slots[i].isSome = true)
    (h2 : s.ghost.tiles.length = s.pixel.tileCols * s.pixel.tileRows)
    (h3 : ∀ i < s.pixel.tileCols, ∀ j < s.pixel.tileRows, ∀ k : Fin 16,
      (s.tile i j).owner = some k ↔ (s.frame.slots[k]).any (fun sl => sl.hull.has i j) = true)
    (h4 : s.rectsSound) (h5 : s.railsSound) : s.ledgerSound :=
  ⟨h1, ⟨h2, fun i j k hi hj => (h3 i hi j hj k).trans (some_iff _).symm⟩, h4, h5⟩

theorem slots_all {s : State} {P : Slot → Prop} [DecidablePred P]
    (h : ∀ i : Fin 16, (s.frame.slots[i]).all (fun sl => decide (P sl)) = true) (i : Fin 16) (sl : Slot)
    (hs : s.frame.slots[i] = some sl) : P sl := by
  have := h i
  rw [hs] at this
  simpa using this

theorem inFrame_rects (n : Nat) (h : n = 0 ∨ n = 1) : (inFrame n).rectsSound := by
  refine ⟨by rcases h with rfl | rfl <;> decide, by rcases h with rfl | rfl <;> decide,
    by rcases h with rfl | rfl <;> decide, by rcases h with rfl | rfl <;> exact (fun e he => nomatch he), ?_⟩
  refine fun i sl hs => slots_all (P := fun sl => sl.rect.x + sl.rect.w ≤ 64 ∧ sl.rect.y + sl.rect.h ≤ 64 ∧
    0 < sl.rect.w ∧ 0 < sl.rect.h ∧ sl.hull = hullOf sl.rect) ?_ i sl hs
  rcases h with rfl | rfl <;> decide +kernel

theorem inFrame_ledger (n : Nat) (h : n = 0 ∨ n = 1) : (inFrame n).ledgerSound := by
  refine ledgerSound_of ?_ ?_ ?_ (inFrame_rects n h) ⟨fun hr => absurd (by rcases h with rfl | rfl <;> rfl) hr, ?_, ?_⟩
  · rcases h with rfl | rfl <;> decide +kernel
  · rcases h with rfl | rfl <;> rfl
  · rcases h with rfl | rfl <;> decide +kernel
  · rcases h with rfl | rfl <;> decide
  · intro _; rcases h with rfl | rfl <;> rfl

theorem inFrame_canonical (n : Nat) : (inFrame n).memoryCanonical := ⟨rfl, by rfl, by rfl, rfl⟩

theorem smallSet_sound : smallSet.sound := by
  refine ⟨?_, ?_, ?_, ?_, ?_, ?_, ?_, ?_⟩ <;> decide +kernel

/-- In the tests' states every pixel but (0, 0), which slot 0 drives, has its next level equal to its believed level. -/
theorem inFrame_levels (n : Nat) (h : n = 0 ∨ n = 1) : (inFrame n).levelsAgree := by
  intro x y hx hd
  have h0 : ((inFrame n).pixel.driveSet { slot with index := n }).has x y = false :=
    hd 0 _ (by rcases h with rfl | rfl <;> decide +kernel)
  have hne : pixelAddress x y ≠ 0 := by
    intro h0'
    simp only [pixelAddress, Config.planeStride] at h0'
    have hx0 : x = 0 := by omega
    have hy0 : y = 0 := by omega
    subst hx0; subst hy0
    rw [show ((inFrame n).pixel.driveSet { slot with index := n }).has 0 0 = true from rfl] at h0
    cases h0
  show Memory.read white [(0, 0#4)] (pixelAddress x y) = Memory.read white [] (pixelAddress x y)
  simp [Memory.read, hne]

theorem inFrame_plane (n : Nat) (h : n = 0 ∨ n = 1) : (inFrame n).planeSound :=
  ⟨inFrame_canonical n, inFrame_rects n h, inFrame_levels n h⟩

theorem inFrame_sets (n : Nat) (h : n = 0 ∨ n = 1) : (inFrame n).setsSound := by
  refine ⟨fun m b w hw => ?_, (fun h hh => nomatch hh), ?_⟩
  · have hw' : (if m = .duo ∧ b = 0 then some smallSet else WaveformStore.reset.set? m b) = some w := by
      rw [← WaveformStore.set?_putSet]
      exact hw
    split at hw'
    · cases hw'; exact smallSet_sound
    · have hn : WaveformStore.reset.set? m b = none := by simp [WaveformStore.set?, WaveformStore.reset]
      rw [hn] at hw'; cases hw'
  · refine fun i sl hs => slots_all (P := fun sl => sl.index < sl.length ∧ sl.length ≤ 120) ?_ i sl hs
    rcases h with rfl | rfl <;> decide +kernel

theorem reset_temp : TemperatureUnit.reset.sound := by
  refine ⟨?_, ?_, ?_, ?_, ?_, ?_, ?_, ?_, ?_, ?_, ?_⟩ <;>
    simp [TemperatureUnit.reset, SensorSettings.reset, Config.maxFailures]

theorem warming_temp : warming.temp.sound := by
  refine ⟨by decide, by decide, by decide, by decide, by decide, by decide, by decide, by decide, ?_, ?_, ?_⟩
  · intro t ht; cases ht; exact ⟨by decide, by decide⟩
  · intro t ht; cases ht
  · intro t ht; cases ht

/-- The link after a power-on reset, in a framing state within its bounds. -/
theorem framing_sound (fr : Framing) (h : fr.sound) (hr : fr.reserved ≤ 4118) :
    ({ State.reset with link.framing := fr } : State).link.sound := by
  have hl : ({ State.reset with link.framing := fr } : State).link.reserved = fr.reserved := Nat.zero_add _
  refine ⟨h, ?_, Nat.zero_le _, ?_, fun _ => rfl⟩
  · rw [hl]; exact hr.trans (by decide)
  · intro hf
    rw [MessageLink.rxFree, hl] at hf
    simp only [Config.receiveBytes, Config.holdBelow] at hf
    omega

/-! ### Witnesses: the hypotheses of each statement are met, at the boundaries of its clauses -/

theorem meets_StepTakesFrontCommand : ({ State.reset with pending := [.gapEnd] } : State).pending = .gapEnd :: [] ∧
    State.reset.pending = [] := ⟨rfl, rfl⟩

theorem meets_ReceivedBytesTaken :
    (∀ fr ∈ [Framing.selectWait, .ignore, .header [], .header [0xC3#8], .header [0xC3#8, 1#8, 2#8, 3#8],
      .payload 0x20#8 7#16 4112 [], .payload 0x20#8 7#16 1 [], .skip 65535, .skip 2, .skip 1],
      ({ State.reset with link.framing := fr } : State).link.sound) ∧
    ([] : List Byte).length + 1 < 4112 ∧ ([] : List Byte).length + 1 = 1 := by
  refine ⟨fun fr h => ?_, by decide, by decide⟩
  simp only [List.mem_cons, List.not_mem_nil, or_false] at h
  rcases h with rfl | rfl | rfl | rfl | rfl | rfl | rfl | rfl | rfl | rfl <;>
    exact framing_sound _ (by simp [Framing.sound, Config.maxPayload]) (by decide)

theorem meets_BadSyncDiscards : ({ State.reset with link.framing := .header [] } : State).link.framing = .header [] ∧
    (0xC2#8 : Byte) ≠ 0xC3#8 := by decide

/-- The reply queue with n replies, and two ended waits. -/
def answering (n : Nat) : State :=
  { State.reset with
    link.replies := List.replicate n ⟨1#8, 1#16, .ok, []⟩,
    notice.ended := [⟨⟨0x0400#16, 0x0321#16, 5⟩, false⟩, ⟨⟨0x0401#16, 0x0322#16, 0⟩, true⟩] }

theorem meets_WaitsGoBeforeReceiptReplies : (answering 32).link.replies.length ≤ 32 ∧ (answering 31).link.replies.length ≤ 32 ∧
    (answering 29).link.replies.length ≤ 32 := by decide

/-- A receive buffer with one frame of n payload bytes, in a framing state. -/
def crowded (fr : Framing) (hold : Bool) (n : Nat) : State :=
  { State.reset with
    link := ⟨fr, [⟨0x20#8, 7#16, List.replicate n 0#8⟩], [], hold, false⟩ }

theorem crowded_free (fr : Framing) (hold : Bool) (n : Nat) (h : fr.reserved = 0) :
    (crowded fr hold n).link.rxFree = 16378 - n := by
  simp only [crowded, MessageLink.rxFree, MessageLink.reserved, h, List.map_cons, List.map_nil, Frame.reserved,
    List.length_replicate, List.sum_cons, List.sum_nil, Config.receiveBytes, Config.requestHeaderBytes]
  omega

theorem crowded_sound (fr : Framing) (hold : Bool) (n : Nat) (h : fr.reserved = 0) (hf : fr.sound) (hn : n ≤ 16378)
    (h1 : 11770 < n → hold = true) (h2 : n ≤ 7162 → hold = false) : (crowded fr hold n).link.sound := by
  have hfree := crowded_free fr hold n h
  refine ⟨hf, ?_, Nat.zero_le _, ?_, ?_⟩
  · simp only [crowded, MessageLink.reserved, h, List.map_cons, List.map_nil, Frame.reserved, List.length_replicate,
      List.sum_cons, List.sum_nil, Config.receiveBytes, Config.requestHeaderBytes]
    omega
  · intro hl
    rw [hfree, Config.holdBelow] at hl
    exact h1 (by omega)
  · intro hl
    rw [hfree, Config.releaseFrom] at hl
    exact h2 (by omega)

/-- Lengths 4113, 4112 with one byte too few, 0 with too few and with just enough, and 4112 with just enough. -/
theorem meets_HeaderTaken :
    let fr := fun lo : Byte => Framing.header [0xC3#8, 0x40#8, 0x34#8, 0x12#8, lo]
    (4112 < (0x11#8 : Byte).toNat + 256 * (0x10#8 : Byte).toNat) ∧
    ((0x10#8 : Byte).toNat + 256 * (0x10#8 : Byte).toNat = 4112 ∧ (crowded (fr 0x10#8) true 12261).link.rxFree = 4117 ∧
      (crowded (fr 0x10#8) true 12260).link.rxFree = 4118) ∧
    ((0#8 : Byte).toNat + 256 * (0#8 : Byte).toNat = 0 ∧ (crowded (fr 0#8) true 16373).link.rxFree = 5 ∧
      (crowded (fr 0#8) true 16372).link.rxFree = 6) := by
  refine ⟨by decide, ⟨by decide, ?_, ?_⟩, by decide, ?_, ?_⟩ <;> exact crowded_free _ _ _ rfl

theorem meets_FrameDelivered : (crowded (.header []) true 12260).link.sound ∧
    (crowded (.header []) true 12260).link.framing = .header [] ∧ (List.replicate 4112 (0#8 : Byte)).length ≤ 4112 ∧
    6 + (List.replicate 4112 (0#8 : Byte)).length ≤ (crowded (.header []) true 12260).link.rxFree := by
  refine ⟨crowded_sound _ _ _ rfl (by simp [Framing.sound]) (by decide) (fun _ => rfl) (by decide), rfl, List.length_replicate.le, ?_⟩
  rw [crowded_free _ _ _ rfl, List.length_replicate]

theorem meets_SelectRelease :
    (({ State.reset with link.framing := .header [0xC3#8] } : State).link.framing = .header [0xC3#8] ∧
      1 ≤ [(0xC3#8 : Byte)].length) ∧
    (({ State.reset with link.framing := .payload 0x20#8 7#16 2 [] } : State).link.framing = .payload 0x20#8 7#16 2 [] ∧
      ({ State.reset with link.framing := .payload 0x20#8 7#16 2 [] } : State).link.reserved ≤ 16384) ∧
    ((∀ got, State.reset.link.framing = .header got → got = []) ∧
      ∀ kind tag n got, State.reset.link.framing ≠ .payload kind tag n got) := by
  refine ⟨by decide, by decide, (fun got h => nomatch h), ?_⟩
  intro kind tag n got h
  cases h

/-- Free counts 4607, 4608, 9215 and 9216 stand after a command. -/
theorem meets_HoldFollowsFreeCount :
    ∀ p ∈ [(true, 11771), (false, 11770), (true, 7163), (false, 7162)],
      (crowded .selectWait p.1 p.2).link.sound ∧ exec .gapEnd (crowded .selectWait p.1 p.2) =
        .next (crowded .selectWait p.1 p.2) := by
  intro p hp
  simp only [List.mem_cons, List.not_mem_nil, or_false] at hp
  rcases hp with rfl | rfl | rfl | rfl <;>
    exact ⟨crowded_sound _ _ _ rfl trivial (by decide) (by decide) (by decide), rfl⟩

theorem meets_LinkAndListsStayBounded : (crowded .selectWait true 16378).link.sound ∧
    (crowded .selectWait true 16378).listsBounded ∧ ∃ t, exec .selectRelease (crowded .selectWait true 16378) = .next t :=
  ⟨crowded_sound _ _ _ rfl trivial (by decide) (by decide) (by decide),
    ⟨by decide, by decide, by decide, by decide⟩, _, rfl⟩

/-- A read with one reply at the head. -/
def reading (sent : Nat) : State :=
  { State.reset with link := ⟨.read sent false, [], [⟨1#8, 1#16, .ok, [5#8]⟩], false, true⟩ }

theorem reading_sound (sent : Nat) : (reading sent).link.sound :=
  ⟨trivial, Nat.zero_le _, (by decide : 1 ≤ 32), fun h => absurd h (by decide : ¬ 16384 < 4608), fun _ => rfl⟩

theorem meets_RepliesLeaveAndWaitsFollow :
    ((reading 7).link.sound ∧ (reading 7).link.framing = .read 7 false ∧
      (reading 7).link.replies = ⟨1#8, 1#16, .ok, [5#8]⟩ :: [] ∧
      7 + 1 = (⟨1#8, 1#16, .ok, [5#8]⟩ : Reply).bytes.length) ∧
    ((reading 6).link.sound ∧ 6 + 1 ≠ (⟨1#8, 1#16, .ok, [5#8]⟩ : Reply).bytes.length) ∧
    ((answering 31).notice.ended = ⟨⟨0x0400#16, 0x0321#16, 5⟩, false⟩ :: [⟨⟨0x0401#16, 0x0322#16, 0⟩, true⟩] ∧
      (answering 31).link.replies.length < 32) :=
  ⟨⟨reading_sound 7, rfl, rfl, rfl⟩, ⟨reading_sound 6, by decide⟩, rfl, by decide⟩

theorem meets_ReplyReadOut :
    ((reading 0).link.sound ∧ (reading 0).link.framing = .read 0 false ∧
      (reading 0).link.replies = ⟨1#8, 1#16, .ok, [5#8]⟩ :: []) ∧
    (⟨1#8, 1#16, .ok, [5#8]⟩ : Reply).payload.length < 65536 ∧
    (({ State.reset with link.framing := .read 0 false } : State).link.sound ∧
      ({ State.reset with link.framing := .read 0 false } : State).link.replies = []) ∧
    ({ State.reset with link.framing := .read 0 true } : State).link.framing = .read 0 true :=
  ⟨⟨reading_sound 0, rfl, rfl⟩, by decide, ⟨framing_sound _ trivial (by decide), rfl⟩, rfl⟩

theorem meets_RequestsTakenInTurn :
    (Instr.status.requestKind = some 0x01#8 ∧ State.reset.link.frames = [] ∧
      ((offering .reset 0x02#8 []).link.frames.head? = some (sent 0x02#8 []) ∧ (sent 0x02#8 []).kind ≠ 0x01#8) ∧
      32 ≤ (answering 32).link.replies.length ∧ (answering 0).notice.ended ≠ []) ∧
    (offering .reset 0x7F#8 []).offers (sent 0x7F#8 []) ∧ ∀ c : Instr, c.requestKind ≠ some (sent 0x7F#8 []).kind := by
  refine ⟨⟨rfl, rfl, ⟨rfl, by decide⟩, by decide, by decide⟩, ⟨rfl, rfl⟩, fun c => ?_⟩
  cases c <;> simp [Instr.requestKind, sent]

theorem meets_BadLengthRefused : Instr.status.requestKind = some 0x01#8 ∧ Instr.status.fixedLength = some 0 ∧
    (offering .reset 0x01#8 [0#8]).offers (sent 0x01#8 [0#8]) ∧ (sent 0x01#8 [0#8]).kind = 0x01#8 ∧
    (sent 0x01#8 [0#8]).payload.length ≠ 0 := ⟨rfl, rfl, ⟨rfl, rfl⟩, rfl, by decide⟩

theorem meets_StateReported :
    ((offering (inFrame 1) 0x01#8 []).offers (sent 0x01#8 []) ∧ (sent 0x01#8 []).kind = 0x01#8 ∧
      (sent 0x01#8 []).payload = [] ∧ (offering (inFrame 1) 0x01#8 []).listsBounded ∧
      (offering (inFrame 1) 0x01#8 []).temp.sound) ∧
    (∀ k ∈ [(0x42#8 : Byte), 0x23#8, 0x61#8], (offering (inFrame 1) k []).offers (sent k [])) ∧
    (offering (inFrame 1) 0x61#8 []).frame.admissions.length ≤ 16 ∧
    (wide.sched.queue[0]? = some entry ∧ wide.sched.queue[2]? = some entry ∧ wide.sched.queue[3]? = none) ∧
    (inFrame 1).wave.held = none ∧ (inFrame 1).wave.installed[0]? = some (.duo, 0, smallSet) :=
  ⟨⟨⟨rfl, rfl⟩, rfl, rfl, ⟨by decide, by decide, by decide, by decide⟩, reset_temp⟩, fun _ _ => ⟨rfl, rfl⟩, by decide,
    ⟨rfl, rfl, rfl⟩, rfl, rfl⟩

theorem meets_SoftReset : (offering (inFrame 1) 0x02#8 []).offers (sent 0x02#8 []) ∧ (sent 0x02#8 []).kind = 0x02#8 ∧
    (sent 0x02#8 []).payload = [] ∧ (offering (inFrame 1) 0x02#8 []).planeSound ∧
    (offering (inFrame 1) 0x02#8 []).ledgerSound ∧ ∃ t, exec .resetPart (offering (inFrame 1) 0x02#8 []) = .next t :=
  ⟨⟨rfl, rfl⟩, rfl, rfl, inFrame_plane 1 (.inr rfl), inFrame_ledger 1 (.inr rfl), _, rfl⟩

theorem meets_PanelSetup :
    ((offering .reset 0x10#8 (List.replicate 6 0#8)).offers (sent 0x10#8 (List.replicate 6 0#8)) ∧
      (List.replicate 6 (0#8 : Byte)).length = 6 ∧ State.reset.rail.state = .off ∧
      (∀ i : Fin 16, State.reset.frame.slots[i] = none) ∧ State.reset.sched.queue = []) ∧
    (offering driving 0x10#8 (List.replicate 6 0#8)).offers (sent 0x10#8 (List.replicate 6 0#8)) ∧
    driving.rail.state ≠ .off := ⟨⟨⟨rfl, rfl⟩, rfl, rfl, by decide, rfl⟩, ⟨rfl, rfl⟩, by decide⟩

theorem meets_TilesAndHulls :
    ((PixelStore.setup 1448 1072).tileCols = (1448 + 31) / 32 ∧ (PixelStore.setup 1448 1072).tileRows = (1072 + 31) / 32 ∧
      45 + 1 ≤ (PixelStore.setup 1448 1072).tileCols ∧ 33 + 1 ≤ (PixelStore.setup 1448 1072).tileRows) ∧
    0 < (⟨5, 5, 1, 1⟩ : Rect).w ∧ 0 < (⟨5, 5, 1, 1⟩ : Rect).h := by decide

/-- A WRITE_IMAGE payload: a format and a rectangle of small fields, with n bytes of data. -/
def imagePayload (format x y w h : Byte) (n : Nat) : List Byte :=
  [format, 0#8, x, 0#8, y, 0#8, w, 0#8, h, 0#8] ++ List.replicate n 0#8

theorem panel_canonical (kind : Byte) (p : List Byte) : (offering panel kind p).memoryCanonical := ⟨rfl, rfl, rfl, rfl⟩

/-- The whole panel of 64 by 64 pixels in L8, and the last pixel alone, pass every check. -/
theorem meets_ImageWritten_taken :
    (∀ q ∈ [imagePayload 2#8 0#8 0#8 64#8 64#8 4096, imagePayload 2#8 63#8 63#8 1#8 1#8 1],
      (offering panel 0x11#8 q).offers (sent 0x11#8 q)) ∧
    (offering panel 0x11#8 (imagePayload 2#8 63#8 63#8 1#8 1#8 1)).memoryCanonical ∧ panel.pixel.width ≤ 2048 ∧
    panel.pixel.setUp = true ∧
    (let p := imagePayload 2#8 63#8 63#8 1#8 1#8 1
     let r := rectAt p 2
     10 ≤ p.length ∧ u8At p 0 = 2 ∧ PixelFormat.ofCode (u8At p 0) = some .l8 ∧ 0 < r.w ∧ 0 < r.h ∧ r.x + r.w ≤ panel.pixel.width ∧
       r.y + r.h ≤ panel.pixel.height ∧ PixelFormat.l8.aligned r = true ∧ PixelFormat.l8.dataBytes r ≤ 4096 ∧
       p.length = 10 + PixelFormat.l8.dataBytes r) :=
  ⟨fun _ _ => ⟨rfl, rfl⟩, panel_canonical _ _, by decide, rfl, by decide⟩

/-- One payload for each refusal: nine bytes; no panel; format 3; an empty rectangle; one beyond the panel; an odd x in L4;
a length that is not exact. -/
theorem meets_ImageWritten_refused :
    (∀ s ∈ [State.reset, panel], ∀ p : List Byte, s.canTake = true → (offering s 0x11#8 p).offers (sent 0x11#8 p)) ∧
    (List.replicate 9 (0#8 : Byte)).length < 10 ∧ State.reset.pixel.setUp = false ∧ panel.pixel.setUp = true ∧
    2 < u8At (imagePayload 3#8 0#8 0#8 1#8 1#8 1) 0 ∧
    ((rectAt (imagePayload 2#8 10#8 10#8 0#8 5#8 0) 2).w = 0 ∧ (rectAt (imagePayload 2#8 10#8 10#8 5#8 0#8 0) 2).h = 0) ∧
    (let r := rectAt (imagePayload 2#8 64#8 0#8 1#8 1#8 1) 2
     panel.pixel.width < r.x + r.w) ∧
    PixelFormat.l4.aligned (rectAt (imagePayload 0#8 1#8 0#8 2#8 2#8 2) 2) = false ∧
    (imagePayload 0#8 0#8 0#8 4#8 1#8 3).length ≠ 10 + PixelFormat.l4.dataBytes (rectAt (imagePayload 0#8 0#8 0#8 4#8 1#8 3) 2) :=
  ⟨fun s _ p h => offering_offers s _ p h, by decide, rfl, rfl, by decide, by decide, by decide, by decide, by decide⟩

/-- More than 4096 bytes of data fit the panel of 2048 by 64 pixels alone: 65 by 64 pixels in L8 (TABLE 1-6). -/
theorem meets_ImageWritten_too_much :
    let r := rectAt (imagePayload 2#8 0#8 0#8 65#8 64#8 0) 2
    r.x + r.w ≤ (PixelStore.setup 2048 64).width ∧ r.y + r.h ≤ (PixelStore.setup 2048 64).height ∧
      4096 < PixelFormat.l8.dataBytes r := by decide

/-- A payload of a rectangle of small fields with two further bytes. -/
def rectPayload (x y w h a b : Byte) : List Byte := [x, 0#8, y, 0#8, w, 0#8, h, 0#8, a, b]

theorem meets_ImageFilled :
    let s := offering panel 0x12#8 (rectPayload 63#8 63#8 1#8 1#8 15#8 0#8)
    let r := rectAt (rectPayload 63#8 63#8 1#8 1#8 15#8 0#8) 0
    s.offers (sent 0x12#8 (rectPayload 63#8 63#8 1#8 1#8 15#8 0#8)) ∧ (rectPayload 63#8 63#8 1#8 1#8 15#8 0#8).length = 10 ∧
    s.memoryCanonical ∧ s.pixel.width ≤ 2048 ∧ s.pixel.setUp = true ∧ 0 < r.w ∧ 0 < r.h ∧ r.x + r.w ≤ s.pixel.width ∧
    r.y + r.h ≤ s.pixel.height ∧ State.reset.pixel.setUp = false ∧
    (rectAt (rectPayload 0#8 0#8 0#8 1#8 0#8 0#8) 0).w = 0 ∧
    s.pixel.width < (rectAt (rectPayload 63#8 0#8 2#8 1#8 0#8 0#8) 0).x + (rectAt (rectPayload 63#8 0#8 2#8 1#8 0#8 0#8) 0).w :=
  ⟨⟨rfl, rfl⟩, rfl, panel_canonical _ _, by decide, rfl, by decide, by decide, by decide, by decide, rfl, by decide, by decide⟩

/-- A read of one pixel at the corner, an odd x, and 8193 pixels, of both planes. -/
theorem meets_LevelsRead :
    (∀ k ∈ [(0x13#8 : Byte), 0x14#8], ∀ p : List Byte, (offering panel k p).offers (sent k p)) ∧
    (let r := rectAt [62#8, 0#8, 63#8, 0#8, 1#8, 0#8, 1#8, 0#8] 0
     panel.pixel.setUp = true ∧ 0 < r.w ∧ 0 < r.h ∧ r.x + r.w ≤ panel.pixel.width ∧ r.y + r.h ≤ panel.pixel.height ∧
       r.x % 2 = 0 ∧ r.w * r.h ≤ 8192 ∧ r.w * r.h % 2 = 1) ∧
    State.reset.pixel.setUp = false ∧ (rectAt (List.replicate 8 0#8) 0).w = 0 ∧
    (rectAt [63#8, 0#8, 0#8, 0#8, 1#8, 0#8, 1#8, 0#8] 0).x % 2 = 1 ∧
    8192 < (rectAt [0#8, 0#8, 0#8, 0#8, 0x55#8, 0x15#8, 3#8, 0#8] 0).w * (rectAt [0#8, 0#8, 0#8, 0#8, 0x55#8, 0x15#8, 3#8, 0#8] 0).h :=
  ⟨fun k hk p => ⟨rfl, rfl⟩, by decide, rfl, by decide, by decide, by decide⟩

theorem meets_PlaneWriters :
    (∃ t, exec .fillImage (offering panel 0x12#8 (rectPayload 0#8 0#8 1#8 1#8 0#8 0#8)) = .next t ∧
      t.pixel.image ≠ panel.pixel.image) ∧
    ∃ t, exec .frameEnd (inFrame 1) = .next t ∧ t.pixel.believed ≠ (inFrame 1).pixel.believed :=
  ⟨⟨_, rfl, by decide⟩, _, rfl, by decide +kernel⟩

theorem meets_NextAgreesOutsideDriveSets : (inFrame 1).planeSound ∧ ∃ t, exec .frameEnd (inFrame 1) = .next t :=
  ⟨inFrame_plane 1 (.inr rfl), _, rfl⟩

/-! ### Witnesses: waveform sets -/

/-- The part with a commit held for its DUO set, which slot 0 uses. -/
def withHeld : State := { inFrame 0 with wave.held := some ⟨.duo, 0, 261, 0xE004#16, [2]⟩ }

/-- One byte at the last place of the staging buffer, one beyond it, a short payload, and a commit held. -/
theorem meets_WaveformLoaded :
    (∀ s ∈ [State.reset, withHeld], ∀ p : List Byte, (offering s 0x20#8 p).offers (sent 0x20#8 p) ∧
      (offering s 0x20#8 p).memoryCanonical) ∧
    [(1#8 : Byte)].length < 2 ∧ 4096 < ((List.replicate 4099 (0#8 : Byte)).drop 2).length ∧ withHeld.wave.held ≠ none ∧
    State.reset.wave.held = none ∧
    (u16At [0xFF#8, 0x3F#8, 1#8] 0 + ([0xFF#8, 0x3F#8, (1#8 : Byte)].drop 2).length = 16384 ∧
      u16At [0x00#8, 0x40#8, 1#8] 0 + ([0x00#8, 0x40#8, (1#8 : Byte)].drop 2).length = 16385) := by
  refine ⟨fun s hs p => ?_, by decide, ?_, by decide, rfl, by decide, by decide⟩
  · simp only [List.mem_cons, List.not_mem_nil, or_false] at hs
    rcases hs with rfl | rfl
    · exact ⟨⟨rfl, rfl⟩, rfl, rfl, rfl, rfl⟩
    · exact ⟨⟨rfl, rfl⟩, rfl, by rfl, by rfl, rfl⟩
  · rw [List.length_drop, List.length_replicate]; decide

/-- A staging buffer with a header, a last table entry and three sequence bytes; all else is 0. -/
def image (mode band L S last a b c : Byte) : WaveformStore :=
  let entries := [(0, mode), (1, band), (2, L), (3, S), (259, last), (260, a), (261, b), (262, c)]
  { WaveformStore.reset with staging := entries.filter fun e => e.2 ≠ 0#8 }

/-- For each reason the nearest image that fails it beside one that does not: lengths 3 and 4; modes; bands; L of 0, 1, 120 and
121; S of 0, 1, 64 and 65; lengths 262 and 263 for three sequences of one byte; a last table entry of 2 and 3; and code 3 in the
last frame of the last sequence but not behind it. -/
theorem meets_ImageChecked :
    ((image 3#8 0#8 1#8 3#8 0#8 0#8 0#8 0#8).imageFault .duo 0 3 = some (1, 0) ∧
      (image 3#8 0#8 1#8 3#8 0#8 0#8 0#8 0#8).imageFault .quick 0 4 = some (2, 0) ∧
      (image 3#8 0#8 1#8 3#8 0#8 0#8 0#8 0#8).imageFault .duo 1 4 = some (2, 1)) ∧
    ((image 3#8 0#8 0#8 3#8 0#8 0#8 0#8 0#8).imageFault .duo 0 4 = some (3, 2) ∧
      (image 3#8 0#8 121#8 3#8 0#8 0#8 0#8 0#8).imageFault .duo 0 4 = some (3, 2) ∧
      (image 3#8 0#8 120#8 0#8 0#8 0#8 0#8 0#8).imageFault .duo 0 4 = some (4, 3) ∧
      (image 3#8 0#8 1#8 65#8 0#8 0#8 0#8 0#8).imageFault .duo 0 4 = some (4, 3) ∧
      (image 3#8 0#8 1#8 64#8 0#8 0#8 0#8 0#8).imageFault .duo 0 4 = some (5, 324) ∧
      (image 3#8 0#8 1#8 1#8 0#8 0#8 0#8 0#8).imageFault .duo 0 4 = some (5, 261)) ∧
    ((image 3#8 0#8 3#8 3#8 0#8 0#8 0#8 0#8).imageFault .duo 0 262 = some (5, 263) ∧
      (image 3#8 0#8 3#8 3#8 3#8 0#8 0#8 0#8).imageFault .duo 0 263 = some (6, 255) ∧
      (image 3#8 0#8 3#8 3#8 2#8 0#8 0#8 0x0C#8).imageFault .duo 0 263 = some (7, 258) ∧
      (image 3#8 0#8 3#8 3#8 2#8 0#8 0x30#8 0xC0#8).imageFault .duo 0 263 = some (7, 129) ∧
      (image 3#8 0#8 3#8 3#8 2#8 0#8 0#8 0x03#8).imageFault .duo 0 263 = none) := by
  refine ⟨?_, ?_, ?_⟩ <;> decide +kernel

/-- Mode 5, band 8, a length of 16385, a commit held, a CRC that differs, and an image with code 3. -/
theorem meets_CommitRefused :
    (∀ s ∈ [State.reset, withHeld, staged .reset 0x30#8], ∀ p : List Byte, (offering s 0x21#8 p).offers (sent 0x21#8 p)) ∧
    (4 < u8At [5#8, 0#8, 5#8, 1#8, 0#8, 0#8] 0 ∧ 7 < u8At [4#8, 8#8, 5#8, 1#8, 0#8, 0#8] 1 ∧
      16384 < u16At [0#8, 0#8, 1#8, 0x40#8, 0#8, 0#8] 2) ∧
    (u8At [3#8, 0#8, 5#8, 1#8, 0#8, 0#8] 0 = Mode.duo.code ∧ u8At [3#8, 0#8, 5#8, 1#8, 0#8, 0#8] 1 = (0 : Fin 8).val ∧
      u16At [3#8, 0#8, 5#8, 1#8, 0#8, 0#8] 2 ≤ 16384) ∧
    withHeld.wave.held ≠ none ∧ State.reset.wave.held = none ∧
    (crc16 (State.reset.wave.stagingBytes 0)).toNat ≠ u16At [3#8, 0#8, 0#8, 0#8, 0#8, 0#8] 4 ∧
    ((crc16 (State.reset.wave.stagingBytes 0)).toNat = u16At [3#8, 0#8, 0#8, 0#8, 0xFF#8, 0xFF#8] 4 ∧
      State.reset.wave.imageFault .duo 0 0 = some (1, 0)) := by
  refine ⟨fun s hs p => ?_, by decide, by decide, by decide, rfl, by decide, by decide⟩
  simp only [List.mem_cons, List.not_mem_nil, or_false] at hs
  rcases hs with rfl | rfl | rfl <;> exact ⟨rfl, rfl⟩

/-- A commit whose image passes, where no slot uses its set and where slot 0 does. -/
theorem meets_CommitInstallsOrHolds :
    (∀ s ∈ [State.reset, inFrame 0], (committing s 0x50#8 0x04#8 0xE0#8).offers
      (sent 0x21#8 [3#8, 0#8, 0x05#8, 0x01#8, 0x04#8, 0xE0#8])) ∧
    (u8At [3#8, 0#8, 0x05#8, 0x01#8, 0x04#8, 0xE0#8] 0 = Mode.duo.code ∧
      u8At [3#8, 0#8, 0x05#8, 0x01#8, 0x04#8, 0xE0#8] 1 = (0 : Fin 8).val ∧
      u16At [3#8, 0#8, 0x05#8, 0x01#8, 0x04#8, 0xE0#8] 2 = 261) ∧
    (staged .reset 0x50#8).wave.held = none ∧ (staged (inFrame 0) 0x50#8).wave.held = none ∧
    (crc16 ((staged .reset 0x50#8).wave.stagingBytes 261)).toNat = u16At [3#8, 0#8, 0x05#8, 0x01#8, 0x04#8, 0xE0#8] 4 ∧
    (staged .reset 0x50#8).wave.imageFault .duo 0 261 = none ∧
    (∃ (i : Fin 16) (sl : Slot), (inFrame 0).frame.slots[i] = some sl ∧ sl.effective = .duo ∧ sl.band = 0) := by
  refine ⟨fun s hs => ?_, by decide, rfl, rfl, ?_, test_commit_checks, 0, _, rfl, rfl, rfl⟩
  · simp only [List.mem_cons, List.not_mem_nil, or_false] at hs
    rcases hs with rfl | rfl <;> exact ⟨rfl, rfl⟩
  · rw [test_crc_of_image]; decide

/-- Mode 5 and band 8; a commit held; an absent set; a set that slot 0 uses; a set that no slot uses. -/
theorem meets_WaveformErased :
    (∀ s ∈ [State.reset, withHeld, inFrame 0, panel], ∀ p : List Byte, (offering s 0x22#8 p).offers (sent 0x22#8 p)) ∧
    (4 < u8At [5#8, 0#8] 0 ∧ 7 < u8At [0#8, 8#8] 1 ∧ u8At [3#8, 0#8] 0 = Mode.duo.code ∧ u8At [3#8, 0#8] 1 = (0 : Fin 8).val) ∧
    withHeld.wave.held ≠ none ∧ State.reset.wave.set? .duo 0 = none ∧
    ((inFrame 0).wave.set? .duo 0 ≠ none ∧
      ∃ (i : Fin 16) (sl : Slot), (inFrame 0).frame.slots[i] = some sl ∧ sl.effective = .duo ∧ sl.band = 0) ∧
    (panel.wave.held = none ∧ panel.wave.set? .duo 0 ≠ none ∧ ∀ i : Fin 16, panel.frame.slots[i] = none) := by
  refine ⟨fun s hs p => ?_, by decide, by decide, by decide, ⟨by decide, 0, _, rfl, rfl, rfl⟩, rfl, by decide, by decide⟩
  simp only [List.mem_cons, List.not_mem_nil, or_false] at hs
  rcases hs with rfl | rfl | rfl | rfl <;> exact ⟨rfl, rfl⟩

theorem meets_SetInUseKept : ∃ t, exec .frameEnd (inFrame 0) = .next t ∧ ∃ sl, t.frame.slots[(0 : Fin 16)] = some sl :=
  ⟨_, rfl, _, rfl⟩

theorem meets_SetsStaySound : (inFrame 0).setsSound ∧ ∃ t, exec .frameEnd (inFrame 0) = .next t :=
  ⟨inFrame_sets 0 (.inl rfl), _, rfl⟩

/-! ### Witnesses: temperature and settings -/

theorem meets_SensorWordDecoded : (0x7FFF#16 : SensorWord) ≠ 0xFFFF#16 ∧ (0xFFF0#16 : SensorWord) ≤ 0xFFF0#16 ∧
    (0xFFFE#16 : SensorWord) < 0xFFFF#16 ∧ warming.temp.cycle = .sampling := by decide

theorem meets_TriggersTaken :
    TemperatureUnit.reset.cycle = .ready ∧ warming.temp.cycle ≠ .ready ∧
    (offering warming 0x32#8 []).offers (sent 0x32#8 []) ∧
    ({ State.reset with temp.timer := some 0 } : State).temp.timer = some 0 ∧
    TemperatureUnit.reset.settings.source ≠ .frameStart ∧
    (let u := { TemperatureUnit.reset with settings.source := .frameStart, settings.divider := 255, divider := 253 }
     u.settings.source = .frameStart ∧ u.divider + 1 < u.settings.divider) ∧
    (let u := { TemperatureUnit.reset with settings.source := .frameStart, settings.divider := 255, divider := 254 }
     u.settings.source = .frameStart ∧ u.settings.divider ≤ u.divider + 1) :=
  ⟨rfl, by decide, ⟨rfl, rfl⟩, rfl, by decide, by decide, by decide⟩

theorem meets_SensorCycleEnds :
    (warming.temp.cycle = .sampling ∧ min (warming.temp.failures + 1) 15 < warming.temp.settings.failLimit) ∧
    (let u := { warming.temp with failures := 2 }
     u.cycle = .sampling ∧ u.status ≠ .stale ∧ u.settings.failLimit ≤ min (u.failures + 1) 15) ∧
    ({ State.reset with temp.cycle := .gap 0 } : State).temp.cycle = .gap 0 ∧
    (decodeSample 0x1000#16 = some 256 ∧ decodeSample 0x0FF0#16 = some 255 ∧ warming.temp.sound) :=
  ⟨by decide, by decide, rfl, by decide, by decide, warming_temp⟩

/-- For band 1 with hysteresis 16 the sample 255 is inside and 256 outside (3.9.1); band counts 0, 1, 8 and 9. -/
theorem meets_BandsSelected :
    (warming.temp.sound ∧ insideBand warming.temp.boundaries warming.temp.band warming.temp.settings.hysteresis 256 = false ∧
      insideBand warming.temp.boundaries warming.temp.band warming.temp.settings.hysteresis 255 = true) ∧
    (let u := { warming.temp with settings.hysteresis := 0 }
     u.settings.hysteresis = 0 ∧ insideBand u.boundaries u.band 0 239 = true) ∧
    (∀ p : List Byte, (offering warming 0x30#8 p).offers (sent 0x30#8 p)) ∧
    (∀ k ∈ [(0#8 : Byte), 1#8, 8#8, 9#8], (k :: List.replicate 15 (0#8 : Byte)).length = 16) ∧
    u8At (9#8 :: List.replicate 15 0#8) 0 = 9 :=
  ⟨⟨warming_temp, by decide, by decide⟩, by decide, fun _ => ⟨rfl, rfl⟩, by decide, by decide⟩

theorem meets_ValuesStayInRange : warming.temp.sound ∧ (inFrame 0).accountsBounded ∧
    (∃ t, exec (.sensorCycleEnd 0x1040#16) warming = .next t) ∧ ∃ t, exec .frameEnd (inFrame 0) = .next t := by
  refine ⟨warming_temp, ⟨by decide, ?_⟩, ⟨_, rfl⟩, _, rfl⟩
  decide +kernel

theorem meets_SettingsReplaced :
    (∀ (k : Byte) (p : List Byte), (offering .reset k p).offers (sent k p)) ∧
    (3 < u8At [4#8, 0#8, 0#8, 0#8, 0#8, 0#8, 0#8, 0#8] 0 ∧
      u8At [3#8, 0#8, 0#8, 0#8, 0#8, 0#8, 0#8, 0#8] 0 = TriggerSource.railOn.code ∧
      u8At [3#8, 0#8, 0#8, 0#8, 0#8, 0#8, 0#8, 0#8] 1 = ComparatorMode.off.code) ∧
    (1 < u8At (List.replicate 14 2#8) 11 ∧ u8At (List.replicate 14 1#8) 11 ≤ 1 ∧ u8At (List.replicate 14 1#8) 12 ≤ 1 ∧
      (List.replicate 14 (1#8 : Byte)).length = 14) ∧ (List.replicate 6 (0#8 : Byte)).length = 6 :=
  ⟨fun _ _ => ⟨rfl, rfl⟩, by decide, by decide, rfl⟩

/-! ### Witnesses: updates, admission and tiles -/

/-- A START_UPDATE payload of small fields. -/
def updatePayload (x y w h mode policy : Byte) : List Byte := rectPayload x y w h mode policy

/-- One request for each refusal, and one whose rectangle is the last pixel of the panel, accepted at the last place. -/
theorem meets_UpdateStarted :
    (∀ s ∈ [State.reset, panel, wide], ∀ p : List Byte, (offering s 0x40#8 p).offers (sent 0x40#8 p)) ∧
    State.reset.pixel.setUp = false ∧ panel.pixel.setUp = true ∧
    (4 < u8At (updatePayload 0#8 0#8 1#8 1#8 5#8 0#8) 8 ∧ 2 < u8At (updatePayload 0#8 0#8 1#8 1#8 3#8 3#8) 9) ∧
    (let p := updatePayload 63#8 63#8 1#8 1#8 3#8 2#8
     let r := rectAt p 0
     p.length = 10 ∧ u8At p 8 = Mode.duo.code ∧ u8At p 9 = Policy.force.code ∧ r.x < panel.pixel.width ∧
       r.y < panel.pixel.height ∧ 0 < r.w ∧ 0 < r.h ∧ panel.wave.set? .duo panel.temp.band ≠ none ∧
       (List.replicate 7 entry).length < 8 ∧ 8 ≤ (List.replicate 8 entry).length) ∧
    panel.pixel.width ≤ (rectAt (updatePayload 64#8 0#8 1#8 1#8 3#8 0#8) 0).x ∧
    (rectAt (updatePayload 0#8 0#8 0#8 1#8 3#8 0#8) 0).w = 0 ∧ panel.wave.set? .clear panel.temp.band = none := by
  refine ⟨fun s hs p => ?_, rfl, rfl, by decide, by decide, by decide, by decide, by decide⟩
  simp only [List.mem_cons, List.not_mem_nil, or_false] at hs
  rcases hs with rfl | rfl | rfl <;> exact ⟨rfl, rfl⟩

theorem meets_QueueEmptied :
    (∀ p : List Byte, (offering wide 0x41#8 p).offers (sent 0x41#8 p)) ∧ (offering wide 0x60#8 []).offers (sent 0x60#8 []) ∧
    (offering examining 0x60#8 []).offers (sent 0x60#8 []) ∧ examining.frame.phase = .pass 0 ∧
    [(0x51#8 : Byte), 0#8].length = 2 := ⟨fun _ => ⟨rfl, rfl⟩, ⟨rfl, rfl⟩, ⟨rfl, rfl⟩, rfl, rfl⟩

/-- The rails ON before a frame start, nothing to do, with an idle-frame count. -/
def idling (idle : Nat) : State :=
  { State.reset with
    rail := ⟨.on, 40, 30, 50, true⟩,
    frame := { FrameEngine.reset with idle := idle, phase := .between } }

theorem meets_FrameStart :
    (examining.rail.state = .on ∧ ({ examining with frame.phase := .between } : State).frame.phase = .between ∧
      examining.sched.queue ≠ []) ∧
    (driving.rail.state = .on ∧ driving.frame.phase = .between ∧ driving.sched.queue = [] ∧
      ¬ ∀ i : Fin 16, driving.frame.slots[i] = none) ∧
    (∀ i : Fin 16, (idling 48).frame.slots[i] = none) ∧ min ((idling 48).frame.idle + 1) 1000 < (idling 48).rail.lingerFrames ∧
    (idling 49).rail.lingerFrames ≤ min ((idling 49).frame.idle + 1) 1000 :=
  ⟨⟨rfl, rfl, by decide⟩, ⟨rfl, rfl, rfl, by decide⟩, by decide, by decide, by decide⟩

/-- A pass with its one entry to examine, one that has left it waiting, one over no entry with a slot active, and an idle one. -/
theorem meets_FrameStart_pass :
    (examining.frame.phase = .pass 0 ∧ examining.sched.queue.length = 1) ∧
    (({ examining with frame.phase := .pass 1 } : State).frame.phase = .pass 1 ∧ examining.sched.queue ≠ []) ∧
    (({ driving with frame.phase := .pass 0 } : State).sched.queue.length ≤ 0 ∧
      ¬ ∀ i : Fin 16, driving.frame.slots[i] = none) ∧
    ∀ n, ({ idling n with frame.phase := .pass 0 } : State).sched.queue.length ≤ 0 :=
  ⟨⟨rfl, rfl⟩, ⟨rfl, by decide⟩, ⟨by decide, by decide⟩, fun _ => Nat.le_refl _⟩

/-- `examining` with all tiles rested for so many milliseconds. -/
def rested (rest : Nat) : State := { examining with ghost.tiles := List.replicate 4 ⟨none, .known, 0, 0, rest⟩ }

theorem test_pass_ends_with_entry_waiting : got (fun t => (t.rail.state, t.frame.idle, t.frame.phase, t.frame.driveActive))
    .entryExamination { rested 19 with frame.idle := 49 } = some (.on, 0, .driven, false) := by decide +kernel

theorem rested_mayGo : (rested 20).mayGo 0 entry := by
  refine ⟨(fun o ho => nomatch ho), fun i j h => ?_, ⟨0, rfl⟩, (fun h => nomatch h)⟩
  rw [← TileRect.mem_tiles] at h
  obtain ⟨rfl, rfl⟩ : i = 0 ∧ j = 0 := by
    rw [show entry.hull.tiles = [(0, 0)] from rfl] at h
    simpa using h
  exact ⟨rfl, by decide⟩

/-- The settle time of 20 ms is met at a rest of 20 and not at 19; the same entry is held back, driven and refused. -/
theorem meets_EntryExamined :
    ((rested 20).rail.state = .on ∧ (rested 20).frame.phase = .pass 0 ∧ (rested 20).sched.queue[0]? = some entry) ∧
    (rested 20).mayGo 0 entry ∧ ¬ (rested 19).mayGo 0 entry ∧ (rested 20).plan entry 0 = .drive .duo false ∧
    (¬ ∃ h, (rested 20).wave.held = some h ∧ h.mode = .duo ∧ h.band = 0) ∧
    (∃ h, withHeld.wave.held = some h ∧ h.mode = .duo ∧ h.band = 0) ∧
    (rested 20).plan { entry with mode := .quick } 0 = .refused .noWaveform .quick false ∧
    (((rested 20).sched.queue.eraseIdx 0 = [] ∧ ∀ i : Fin 16, (rested 20).frame.slots[i] = none) ∧
      8 ≤ (List.replicate 8 entry).length ∧ ((List.replicate 8 entry).eraseIdx 7).length < 8 ∧
      ¬ 8 ≤ (List.replicate 7 entry).length) := by
  refine ⟨⟨rfl, rfl, rfl⟩, rested_mayGo, fun h => ?_, by decide +kernel, (fun ⟨h, hh, _⟩ => nomatch hh),
    ⟨_, rfl, rfl, rfl⟩, by decide, ⟨rfl, by decide⟩, by decide, by decide, by decide⟩
  exact absurd (h.2.1 0 0 rfl).2 (by decide)

theorem meets_SlotFilled : examining.memoryCanonical ∧ examining.pixel.width ≤ 2048 ∧
    examining.pixel.kept entry.rect entry.hull ∧
    examining.ghost.tiles.length = examining.pixel.tileCols * examining.pixel.tileRows ∧
    examining.wave.set? .duo 0 = some smallSet :=
  ⟨⟨rfl, rfl, rfl, rfl⟩, by decide, ⟨by decide, by decide, by decide, by decide, by decide⟩, rfl, rfl⟩

/-- A set of CLEAR of band 0 beside the DUO set. -/
def withClear : State := { examining with wave := panel.wave.putSet .clear 0 (some smallSet) }

/-- The tile at residue 767 projects 768, the limit, so escalation is needed; at 766 it is not. -/
theorem meets_PlanDecided :
    examining.wave.set? .quick 0 = none ∧ examining.wave.set? .duo 0 ≠ none ∧ examining.wave.set? .clear 0 = none ∧
    withClear.wave.set? .clear 0 ≠ none ∧
    (let s := { examining with ghost.tiles := List.replicate 4 ⟨none, .known, 767, 0, 50⟩ }
     entry.hull.has 0 0 = true ∧ s.ghost.policy.residueLimit ≤ s.projectedResidue entry 0 0) ∧
    (let s := { examining with ghost.tiles := List.replicate 4 ⟨none, .known, 766, 0, 50⟩ }
     s.escalates entry 0 = false) := by
  refine ⟨by decide, by decide, by decide, by decide, by decide +kernel, by decide +kernel⟩

theorem meets_ResidueProjected : (⟨none, .known, 1023, 0, 0⟩ : TileRecord).residue = 1023 ∧ 1 ≤ 255 ∧ 1024 ≤ 1024 := by decide

/-- Charges that reach 32767 and −32768 exactly and go beyond them. -/
theorem meets_ChargeProjected : examining.wave.set? .duo 0 = some smallSet ∧
    examining.chargeSum entry 0 0 0 = 1 ∧ (32766 : Int) + 1 = 32767 ∧ (-32769 : Int) + 1 = -32768 ∧
    examining.ghost.policy.weightClear ≤ 255 := by
  refine ⟨rfl, by decide +kernel, by decide, by decide, by decide⟩

/-- No panel; an empty tile rectangle; one beyond the grid; 257 tiles of a wide grid; action 2; the whole grid. -/
theorem meets_TilesReportedAndMarked :
    (∀ s ∈ [State.reset, inFrame 0, wide], ∀ (k : Byte) (p : List Byte), (offering s k p).offers (sent k p)) ∧
    State.reset.pixel.setUp = false ∧ (inFrame 0).pixel.setUp = true ∧
    (inFrame 0).ghost.tiles.length = (inFrame 0).pixel.tileCols * (inFrame 0).pixel.tileRows ∧
    (let r := tileRectAt [0#8, 0#8, 2#8, 2#8, 0#8, 0#8] 0
     0 < r.cols ∧ 0 < r.rows ∧ r.col + r.cols ≤ (inFrame 0).pixel.tileCols ∧ r.row + r.rows ≤ (inFrame 0).pixel.tileRows ∧
       r.cols * r.rows ≤ 256) ∧
    (tileRectAt [0#8, 0#8, 0#8, 2#8] 0).cols = 0 ∧
    (inFrame 0).pixel.tileCols < (tileRectAt [1#8, 0#8, 2#8, 2#8] 0).col + (tileRectAt [1#8, 0#8, 2#8, 2#8] 0).cols ∧
    (let r := tileRectAt [0#8, 0#8, 32#8, 9#8] 0
     r.cols ≤ wide.pixel.tileCols ∧ r.rows ≤ wide.pixel.tileRows ∧ 256 < r.cols * r.rows) ∧
    1 < u8At [0#8, 0#8, 2#8, 2#8, 2#8, 0#8] 4 ∧ u8At [0#8, 0#8, 2#8, 2#8, 1#8, 0#8] 4 ≤ 1 := by
  refine ⟨fun s hs k p => ?_, rfl, rfl, rfl, by decide, by decide, by decide, by decide, by decide, by decide⟩
  simp only [List.mem_cons, List.not_mem_nil, or_false] at hs
  rcases hs with rfl | rfl | rfl <;> exact ⟨rfl, rfl⟩

/-! ### Witnesses: slots, frames, rails -/

theorem inFrame_list (n : Nat) (h : n = 0 ∨ n = 1) : (inFrame n).frame.listSound := (inFrame_ledger n h).1

/-- The part with a commit held whose image is staged, for the DUO set that slot 0 uses in the frame of an index. -/
def holding (index : Nat) : State :=
  let s := staged (inFrame index) 0x50#8
  { s with wave.held := some ⟨.duo, 0, 261, 0xE004#16, [2]⟩ }

theorem holding_sound (index : Nat) : (holding index).wave.heldSound ⟨.duo, 0, 261, 0xE004#16, [2]⟩ := by
  have h : (holding index).wave.staging = (staged .reset 0x50#8).wave.staging := rfl
  obtain ⟨h1, h2, h3, h4⟩ := WaveformStore.image_congr h
  refine ⟨by rw [h1]; exact test_commit_checks, by rw [h2]; exact test_crc_of_image, ?_⟩
  rw [h3, h4]
  exact test_commit_charges.symm

/-- The frame in which slot 0 completes and releases the set, and the one in which it goes on and keeps it. -/
theorem meets_SlotsAdvanced : (∀ n, n = 0 ∨ n = 1 → (holding n).rail.state = .on ∧ (holding n).frame.phase = .driven ∧
      (holding n).frame.listSound ∧ (holding n).notice.records.length ≤ 16 ∧
      (holding n).wave.held = some ⟨.duo, 0, 261, 0xE004#16, [2]⟩ ∧
      (holding n).wave.heldSound ⟨.duo, 0, 261, 0xE004#16, [2]⟩) ∧
    (∃ (i : Fin 16) (sl : Slot), (holding 1).frame.slots[i] = some sl ∧ sl.length ≤ sl.index + 1 ∧ sl.effective = .duo ∧
      sl.band = 0) ∧
    (∃ (i : Fin 16) (sl : Slot), (holding 0).frame.slots[i] = some sl ∧ sl.index + 1 < sl.length ∧ sl.phase = .driving ∧
      sl.effective = .duo ∧ sl.band = 0) ∧
    (inFrame 1).wave.held = none ∧ ({ inFrame 1 with notice.mode := .pulse } : State).notice.mode = .pulse :=
  ⟨fun n h => ⟨rfl, rfl, inFrame_list n h, Nat.zero_le _, rfl, holding_sound n⟩, ⟨0, _, rfl, by decide, rfl, rfl⟩,
    ⟨0, _, rfl, by decide, rfl, rfl, rfl⟩, rfl, rfl⟩

theorem test_frameEnd_installs : got (fun t => (t.wave.held, (t.wave.set? .duo 0).map WaveformSet.charges, t.notice.kinds))
    .frameEnd (holding 1) = some (none, some [2], 49#9) := by decide +kernel

theorem meets_FrameEndCommits : (inFrame 1).rail.state = .on ∧ (inFrame 1).frame.phase = .driven ∧ (inFrame 1).ledgerSound ∧
    (inFrame 1).memoryCanonical ∧ (∃ t, exec .frameEnd (inFrame 1) = .next t) ∧
    (∃ sl, (inFrame 1).frame.slots[(0 : Fin 16)] = some sl ∧ ((inFrame 1).pixel.driveSet sl).has 7 7 = true ∧
      ((inFrame 1).pixel.driveSet sl).has 8 7 = false) ∧
    ((inFrame 1).tile 0 0).owner = some 0 ∧ ((inFrame 1).tile 1 0).owner = none :=
  ⟨rfl, rfl, inFrame_ledger 1 (.inr rfl), inFrame_canonical 1, ⟨_, rfl⟩, ⟨_, rfl, by decide, by decide⟩, rfl, rfl⟩

theorem meets_SlotRecordKept :
    (∃ t v u, exec .frameEnd (inFrame 0) = .next t ∧ t.frame.slots[(0 : Fin 16)] = some v ∧
      (inFrame 0).frame.slots[(0 : Fin 16)] = some u) ∧
    ∃ t, exec .entryExamination examining = .next t ∧ t.frame.slots[(0 : Fin 16)].isSome = true ∧
      examining.frame.slots[(0 : Fin 16)] = none :=
  ⟨⟨_, _, _, rfl, rfl, rfl⟩, _, rfl, by decide +kernel, rfl⟩

theorem meets_LedgerStaysSound : (inFrame 1).ledgerSound ∧ ∃ t, exec .pwrGoodLoss (inFrame 1) = .next t :=
  ⟨inFrame_ledger 1 (.inr rfl), _, rfl⟩

theorem meets_OneCodePerPixel : (inFrame 0).ledgerSound ∧
    (∃ sl, (inFrame 0).frame.slots[(0 : Fin 16)] = some sl ∧ ((inFrame 0).pixel.driveSet sl).has 0 0 = true ∧
      (inFrame 0).wave.set? sl.effective sl.band = some smallSet) ∧ (inFrame 0).frame.phase = .driven :=
  ⟨inFrame_ledger 0 (.inl rfl), ⟨_, rfl, by decide, rfl⟩, rfl⟩

/-- RISING with so much ramp time left and a level of PWR_GOOD. -/
def ramping (left : Nat) (level : Bool) : State := { State.reset with rail := ⟨.rising left, 40, 30, 50, level⟩ }

/-- An active level with a ramp of 1 and of 2 milliseconds left, an inactive one, and no ramp. -/
theorem meets_MillisecondStepped :
    ((ramping 1 true).rail.state = .rising 1 ∧ ∀ n, (ramping 1 true).rail.state = .rising n → n ≤ 1) ∧
    ((ramping 2 true).rail.state = .rising 2 ∧ 2 ≤ 2 ∧ (ramping 2 true).rail.pwrGood = true) ∧
    (ramping 2 false).rail.pwrGood = false ∧ (∀ n, State.reset.rail.state = .rising n → n ≤ 1) :=
  ⟨⟨rfl, fun n h => by cases h; decide⟩, ⟨rfl, by decide, rfl⟩, rfl, (fun n h => nomatch h)⟩

theorem meets_RailEvents :
    ((ramping 0 true).rail.state = .rising 0 ∧ (ramping 1 false).rail.state = .rising 1 ∧
      (ramping 1 false).rail.pwrGood = false ∧ (ramping 1 true).rail.pwrGood = true) ∧
    ({ State.reset with rail.state := .rising 0 } : State).rail.state = .rising 0 ∧ (∀ n, State.reset.rail.state ≠ .rising n) ∧
    ({ State.reset with rail.state := .falling 0 } : State).rail.state = .falling 0 ∧ State.reset.rail.state ≠ .on ∧
    (∀ s ∈ [{ State.reset with rail.state := .faulted .ramp }, State.reset],
      (offering s 0x71#8 []).offers (sent 0x71#8 [])) ∧ (∀ cause, State.reset.rail.state ≠ .faulted cause) := by
  refine ⟨⟨rfl, rfl, rfl, rfl⟩, rfl, (fun n h => nomatch h), rfl, by decide, fun s hs => ?_, (fun c h => nomatch h)⟩
  simp only [List.mem_cons, List.not_mem_nil, or_false] at hs
  rcases hs with rfl | rfl <;> exact ⟨rfl, rfl⟩

theorem holding_canonical (index : Nat) : (holding index).memoryCanonical := ⟨rfl, by rfl, by rfl, by rfl⟩

/-- One slot active, with a commit held for its set and for another. -/
theorem meets_SupplyLost : (holding 1).rail.state = .on ∧ (holding 1).ledgerSound ∧ (holding 1).memoryCanonical ∧
    (holding 1).notice.records.length ≤ 16 ∧
    (∃ a ∈ (holding 1).frame.admissions.filterMap fun i => (holding 1).frame.slots[i].map fun sl => (i, sl),
      a.2.effective = .duo ∧ a.2.band = 0) ∧
    ((holding 1).wave.held = some ⟨.duo, 0, 261, 0xE004#16, [2]⟩ ∧
      (holding 1).wave.heldSound ⟨.duo, 0, 261, 0xE004#16, [2]⟩) ∧
    (¬ ∃ a ∈ (holding 1).frame.admissions.filterMap fun i => (holding 1).frame.slots[i].map fun sl => (i, sl),
      a.2.effective = .clear ∧ a.2.band = 0) ∧
    (inFrame 1).wave.held = none ∧ (∃ t, exec .pwrGoodLoss (holding 1) = .next t) ∧
    ((holding 1).tile 0 0).owner = some 0 ∧ ((holding 1).tile 1 0).owner = none :=
  ⟨rfl, inFrame_ledger 1 (.inr rfl), holding_canonical 1, by decide, by decide, ⟨rfl, holding_sound 1⟩, by decide, rfl,
    ⟨_, rfl⟩, rfl, rfl⟩

theorem meets_FaultedLeftByHost :
    (let s := offering { State.reset with rail.state := .faulted .loss } 0x71#8 []
     ∃ t, exec .railResume s = .next t ∧ s.rail.state = .faulted .loss ∧ s.frame.phase = .stopped ∧
       t.rail.state ≠ .faulted .loss) ∧
    ∃ t, exec .pwrGoodLoss (inFrame 0) = .next t ∧ t.rail.state = .faulted .loss ∧ (inFrame 0).rail.state ≠ .faulted .loss :=
  ⟨⟨_, rfl, rfl, rfl, by decide⟩, _, rfl, rfl, by decide⟩

/-! ### Witnesses: notices and waits -/

theorem meets_NoticesSetAndFetched :
    (∀ (k : Byte) (p : List Byte), (offering noticed k p).offers (sent k p)) ∧ noticed.notice.records.length ≤ 16 ∧
    (1 < u8At [0#8, 0#8, 0#8, 0#8, 2#8, 0#8] 4 ∧ 1 < u8At [0#8, 0#8, 0#8, 0#8, 0#8, 2#8] 5) ∧
    (u8At [0x11#8, 0#8, 0#8, 0#8, 1#8, 0#8] 4 = AttnMode.pulse.code ∧
      u8At [0x11#8, 0#8, 0#8, 0#8, 1#8, 0#8] 5 = Polarity.activeLow.code) ∧
    (NoticeKind.idle ≠ .done) ∧
    (noticed.notice.mode = .level ∧ ({ noticed with notice.mode := .pulse } : State).notice.mode = .pulse ∧
      noticed.notice.polarity = .activeLow ∧
      ({ noticed with notice.polarity := .activeHigh } : State).notice.polarity = .activeHigh) ∧
    (List.replicate 16 (⟨1#16, none, .noWaveform, .duo, false, false, 0, 0, ⟨0, 0, 1, 1⟩⟩ : CompletionRecord)).length ≤ 16 :=
  ⟨fun _ _ => ⟨rfl, rfl⟩, by decide, by decide, by decide, by decide, ⟨rfl, rfl, rfl, rfl⟩, by decide⟩

/-- A tag that nothing carries; the fifth wait; the fourth; a first entry with time left before one without. -/
theorem meets_WaitsTakenAndEnded :
    (∀ s ∈ [State.reset, driving], ∀ p : List Byte, (offering s 0x82#8 p).offers (sent 0x82#8 p)) ∧
    [(0x51#8 : Byte), 0#8, 0#8, 0#8].length = 4 ∧
    (∃ (i : Fin 16) (sl : Slot), driving.frame.slots[i] = some sl ∧ sl.tag = tagAt [0x51#8, 0#8, 0#8, 0#8] 0) ∧
    ((∀ e ∈ State.reset.sched.queue, e.tag ≠ 0x0051#16) ∧ ∀ i : Fin 16, State.reset.frame.slots[i] = none) ∧
    (4 ≤ (List.replicate 4 (⟨1#16, 2#16, 9⟩ : WaitEntry)).length ∧ (List.replicate 3 (⟨1#16, 2#16, 9⟩ : WaitEntry)).length < 4) ∧
    (let s : State := { State.reset with notice.waits := [⟨1#16, 2#16, 1⟩, ⟨3#16, 4#16, 0⟩, ⟨5#16, 6#16, 0⟩] }
     s.notice.waits = [⟨1#16, 2#16, 1⟩] ++ ⟨3#16, 4#16, 0⟩ :: [⟨5#16, 6#16, 0⟩]) ∧
    (let s : State := { State.reset with notice.mode := .pulse, link.attn := true }
     s.notice.mode = .pulse ∧ s.link.attn = true) := by
  refine ⟨fun s hs p => ?_, rfl, ⟨0, _, rfl, by decide⟩, ⟨(fun e he => nomatch he), by decide⟩, by decide, rfl, rfl, rfl⟩
  simp only [List.mem_cons, List.not_mem_nil, or_false] at hs
  rcases hs with rfl | rfl <;> exact ⟨rfl, rfl⟩

theorem meets_NoticesStaySound : noticed.notice.mode = .level ∧ (offering noticed 0x81#8 [0#8, 0#8]).noticesSound ∧
    ∃ t, exec .fetchNotices (offering noticed 0x81#8 [0#8, 0#8]) = .next t :=
  ⟨rfl, ⟨by decide, fun _ => by decide⟩, _, rfl⟩

end Sys2Proof.Machine.Tests
end

section
/-! PROOF. Chapter 3: what a sensor word decodes to (R40), and that the end of a valid cycle takes the sample as it reads. -/

namespace Sys2Proof.Machine

/-! The value of a sensor word -/

/-- The upper twelve bits of a word as a signed number are its signed value divided by 16, the lower four bits the rest. -/
theorem toInt_eq_upper_add_lower (w : SensorWord) :
    w.toInt = 16 * (w.extractLsb' 4 12).toInt + ((w.toNat % 16 : Nat) : Int) := by
  have hupper : (w.extractLsb' 4 12).toNat = w.toNat / 16 := by
    have hw := w.isLt
    rw [BitVec.extractLsb'_toNat, Nat.shiftRight_eq_div_pow]
    omega
  rw [BitVec.toInt_eq_toNat_cond, BitVec.toInt_eq_toNat_cond, hupper]
  split <;> split <;> omega

@[simp] theorem decodeSample_failed : decodeSample 0xFFFF#16 = none := rfl

theorem decodeSample_of_ne {w : SensorWord} (h : w ≠ 0xFFFF#16) :
    decodeSample w = some (w.extractLsb' 4 12).toInt := if_neg h

theorem toInt_upper_bounds (w : SensorWord) :
    -2048 ≤ (w.extractLsb' 4 12).toInt ∧ (w.extractLsb' 4 12).toInt ≤ 2047 := by
  have hlow := (w.extractLsb' 4 12).le_toInt
  have hhigh := (w.extractLsb' 4 12).toInt_lt
  omega

/-- The words 0xFFF0 to 0xFFFE read −1 sixteenth: signed they are −16 to −2, and their lower four bits are ignored. -/
theorem toInt_upper_eq_neg_one {w : SensorWord} (h : 0xFFF0#16 ≤ w) : (w.extractLsb' 4 12).toInt = -1 := by
  have hsplit := toInt_eq_upper_add_lower w
  have hw := w.isLt
  have hnat : 65520 ≤ w.toNat := by simpa [BitVec.le_def] using h
  have hneg : w.toInt = (w.toNat : Int) - 65536 := by
    rw [BitVec.toInt_eq_toNat_cond, if_neg (by omega)]
    rfl
  omega

/-! The end of a valid cycle -/

@[simp] theorem State.raiseTemp_temp (t : Int) (s : State) :
    (s.raiseTemp t).temp = { s.temp with noticeLatch := some t } := rfl

/-- Of the Temperature Unit the comparator writes its own mode, its reference and the notice latch alone (R52). -/
theorem State.compare_temp (t : Int) (inside : Bool) (s : State) : ∃ mode reference latch,
    (s.compare t inside).temp = { s.temp with comparator := mode, reference := reference, noticeLatch := latch } := by
  unfold State.compare
  split
  case h_1 => exact ⟨_, _, _, rfl⟩
  case h_2 => split <;> exact ⟨_, _, _, rfl⟩
  case h_3 =>
    dsimp only
    split
    · exact ⟨_, _, _, rfl⟩
    · split <;> exact ⟨_, _, _, rfl⟩
  case h_4 => exact ⟨_, _, _, rfl⟩

@[simp] theorem State.compare_lastValid (t : Int) (inside : Bool) (s : State) :
    (s.compare t inside).temp.lastValid = s.temp.lastValid := by
  obtain ⟨_, _, _, h⟩ := s.compare_temp t inside
  rw [h]

@[simp] theorem State.compare_status (t : Int) (inside : Bool) (s : State) :
    (s.compare t inside).temp.status = s.temp.status := by
  obtain ⟨_, _, _, h⟩ := s.compare_temp t inside
  rw [h]

@[simp] theorem State.validSample_lastValid (t : Int) (s : State) : (s.validSample t).temp.lastValid = some t := by
  simp only [State.validSample, State.compare_lastValid]
  split <;> rfl

@[simp] theorem State.validSample_status (t : Int) (s : State) : (s.validSample t).temp.status = .valid := by
  simp only [State.validSample, State.compare_status]
  split <;> rfl

/-- In SAMPLING a word that decodes to a sample ends the cycle as a valid one, with the gap started (R41). -/
theorem exec_sensorCycleEnd_valid {w : SensorWord} {v : Int} {s : State} (hc : s.temp.cycle = .sampling)
    (hv : decodeSample w = some v) : exec (.sensorCycleEnd w) s =
      .next (({ s with temp.cycle := .gap s.temp.settings.gap } : State).validSample v) := by
  change execSensorCycleEnd w s = _
  simp only [execSensorCycleEnd, if_pos hc, hv]

/-- Settles O34: the signed value of the word splits into sixteen times its upper twelve bits and its lower four, and the end
of a valid cycle keeps what was decoded. -/
theorem sensorWordDecoded : Obligations.SensorWordDecoded := by
  refine ⟨decodeSample_failed, fun w hw => ?_, fun w hlow hhigh => ?_, rfl, rfl, fun w s hc hw => ?_⟩
  · obtain ⟨hmin, hmax⟩ := toInt_upper_bounds w
    exact ⟨_, decodeSample_of_ne hw, hmin, hmax, toInt_eq_upper_add_lower w⟩
  · have hw : w ≠ 0xFFFF#16 := BitVec.ne_of_lt hhigh
    rw [decodeSample_of_ne hw, toInt_upper_eq_neg_one hlow]
  · have hv := decodeSample_of_ne hw
    exact ⟨_, exec_sensorCycleEnd_valid hc hv, by rw [State.validSample_lastValid, hv], State.validSample_status _ _⟩

end Sys2Proof.Machine
end

section
/-! PROOF. Chapter 5.3: the residue increment as a rounded-up quotient, and the projected residue it adds to (R83). -/

namespace Sys2Proof.Machine

/-! The pixels of one tile -/

/-- The extent of a tile is at most 32 pixels in each direction, and its meet with a rectangle no larger. -/
theorem Rect.length_pixels_inter_oneTile (r : Rect) (p : PixelStore) (i j : Nat) :
    (r.inter (p.extent (oneTile i j))).pixels.length ≤ 1024 := by
  have hw : (r.inter (p.extent (oneTile i j))).w ≤ 32 := by
    simp only [Rect.inter, PixelStore.extent, oneTile, Config.tileSide]
    omega
  have hh : (r.inter (p.extent (oneTile i j))).h ≤ 32 := by
    simp only [Rect.inter, PixelStore.extent, oneTile, Config.tileSide]
    omega
  rw [Rect.length_pixels]
  exact Nat.mul_le_mul hw hh

theorem State.changeCount_le (s : State) (e : PendingEntry) (m : Mode) (i j : Nat) : s.changeCount e m i j ≤ 1024 :=
  List.countP_le_length.trans (Rect.length_pixels_inter_oneTile e.rect s.pixel i j)

/-! The increment -/

/-- The increment is the least whole number whose 1024-fold reaches the product. -/
theorem increment_le_iff (w c k : Nat) : increment w c ≤ k ↔ w * c ≤ 1024 * k := by
  unfold increment
  omega

theorem mul_le_increment (w c : Nat) : w * c ≤ 1024 * increment w c := (increment_le_iff w c _).mp le_rfl

theorem increment_lt (w c : Nat) : 1024 * increment w c < w * c + 1024 := by
  unfold increment
  omega

theorem increment_eq_zero_iff (w c : Nat) : increment w c = 0 ↔ w = 0 ∨ c = 0 := by
  rw [← Nat.le_zero, increment_le_iff, Nat.mul_zero, Nat.le_zero, Nat.mul_eq_zero]

theorem increment_le_of_le {w c : Nat} (hw : w ≤ 255) (hc : c ≤ 1024) : increment w c ≤ 255 := by
  rw [increment_le_iff, Nat.mul_comm 1024]
  exact Nat.mul_le_mul hw hc

/-- One changed pixel adds 1 under any weight of at least 1. -/
theorem increment_one {w : Nat} (hpos : 1 ≤ w) (hw : w ≤ 255) : increment w 1 = 1 := by
  have hle : increment w 1 ≤ 1 := (increment_le_iff w 1 1).mpr (by omega)
  have hne : increment w 1 ≠ 0 := by
    rw [Ne, increment_eq_zero_iff]
    omega
  omega

/-! The projected residue -/

/-- A full residue stays full whatever its increment. -/
theorem State.projectedResidue_of_full {s : State} {e : PendingEntry} {i j : Nat} (h : (s.tile i j).residue = 1023) :
    s.projectedResidue e i j = 1023 := by
  rw [State.projectedResidue, h]
  exact min_eq_left (Nat.le_add_right _ _)

/-- Settles O46: the first part reads the definitions and bounds a tile's pixels, the second is the arithmetic of rounding up. -/
theorem residueProjected : Obligations.ResidueProjected := by
  refine ⟨fun s e i j => ⟨rfl, rfl, s.changeCount_le e e.mode i j, State.projectedResidue_of_full⟩, fun w c => ?_⟩
  exact ⟨rfl, increment_lt w c, mul_le_increment w c, increment_eq_zero_iff w c, increment_one, increment_le_of_le, rfl⟩

end Sys2Proof.Machine
end

section
/-! PROOF. Chapter 9, receipt: what each command does to the framing state, the frames held and HOLD (R140, R142,
R144). -/

namespace Sys2Proof.Machine

/-! ### The receiving side of the link -/

/-- The receiving side of the Message Link: the link with its sending side, replies and ATTN, blank. -/
def State.receipt (s : State) : MessageLink := { s.link with replies := [], attn := false }

@[simp] theorem State.receipt_rxFree (s : State) : s.receipt.rxFree = s.link.rxFree := rfl

theorem State.receipt_eq_iff (s t : State) : t.receipt = s.receipt ↔
    t.link.framing = s.link.framing ∧ t.link.frames = s.link.frames ∧ t.link.hold = s.link.hold := by
  simp [State.receipt]

@[simp] theorem State.receipt_receiptReply (r : Reply) (s : State) : (s.receiptReply r).receipt = s.receipt := by
  simp [State.receipt_eq_iff]

@[simp] theorem State.receipt_endWaits (ts : List Tag) (s : State) : (s.endWaits ts).receipt = s.receipt := by
  simp [State.receipt_eq_iff]

@[simp] theorem State.receipt_settlePass (s : State) : s.settlePass.receipt = s.receipt := by
  simp [State.receipt_eq_iff]

@[simp] theorem State.receipt_leaveQueue (q : List PendingEntry) (s : State) : (s.leaveQueue q).receipt = s.receipt := by
  simp [State.receipt_eq_iff]

theorem State.receipt_popReply (s : State) : s.popReply.receipt = s.receipt := rfl

theorem State.receipt_setFraming (fr : Framing) (s : State) :
    (s.setFraming fr).receipt = ({ s.receipt with framing := fr } : MessageLink).drawHold := rfl

theorem State.receipt_released (s : State) :
    s.released.receipt = ({ s.receipt with frames := s.link.frames.tail } : MessageLink).drawHold := rfl

theorem State.reserved_released_le (s : State) : s.released.link.reserved ≤ s.link.reserved := by
  have htail : (s.link.frames.tail.map Frame.reserved).sum ≤ (s.link.frames.map Frame.reserved).sum := by
    cases s.link.frames with
    | nil => exact le_rfl
    | cons f fs => simp
  exact Nat.add_le_add_right htail _

/-- The state with HOLD set to a level of choice. -/
def State.withHold (h : Bool) (s : State) : State := { s with link.hold := h }

theorem State.pushReply_withHold (r : Reply) (h : Bool) (s : State) :
    (s.withHold h).pushReply r = (s.pushReply r).withHold h := rfl

theorem State.serveList_withHold (es : List EndedWait) (h : Bool) (s : State) :
    State.serveList es (s.withHold h) = (State.serveList es s).withHold h := by
  induction es generalizing s with
  | nil => rfl
  | cons e es ih =>
    have hroom : (s.withHold h).link.hasRoom = s.link.hasRoom := rfl
    unfold State.serveList
    rw [hroom]
    split
    · rw [State.pushReply_withHold, ih]
    · rfl

theorem State.receiptReply_withHold (r : Reply) (h : Bool) (s : State) :
    (s.withHold h).receiptReply r = (s.receiptReply r).withHold h := by
  have hserve : (s.withHold h).serveWaits = s.serveWaits.withHold h := State.serveList_withHold _ _ _
  have hroom : (s.serveWaits.withHold h).link.hasRoom = s.serveWaits.link.hasRoom := rfl
  simp only [State.receiptReply, hserve, hroom]
  split <;> rfl

/-- A header is taken in the same way whatever HOLD is; only HOLD itself may come out different. -/
theorem State.takeHeader_withHold (kind : Byte) (tag : Tag) (n : Nat) (h : Bool) (s : State) :
    ∃ h', (s.withHold h).takeHeader kind tag n = (s.takeHeader kind tag n).withHold h' := by
  have hframing (fr : Framing) : (s.withHold h).setFraming fr =
      (s.setFraming fr).withHold ((s.withHold h).setFraming fr).link.hold := rfl
  have hfree : (s.withHold h).link.rxFree = s.link.rxFree := rfl
  unfold State.takeHeader
  rw [hfree]
  split
  · exact ⟨_, by rw [hframing, State.receiptReply_withHold]⟩
  · split
    · exact ⟨_, by rw [hframing, State.receiptReply_withHold]⟩
    · split
      · exact ⟨_, rfl⟩
      · exact ⟨_, rfl⟩

theorem execHeaderTaken_withHold (b : Byte) (h : Bool) (s t : State) (ht : execHeaderTaken b s = .next t) :
    ∃ h', execHeaderTaken b (s.withHold h) = .next (t.withHold h') := by
  have hsame : (s.withHold h).link.framing = s.link.framing := rfl
  unfold execHeaderTaken at ht ⊢
  rw [hsame]
  split at ht
  · cases ht
    obtain ⟨h', heq⟩ := State.takeHeader_withHold _ _ _ h s
    exact ⟨h', congrArg _ heq⟩
  · cases ht
    exact ⟨h, rfl⟩

/-! ### What a command does to the receiving side -/

/-- The commands whose event gives room back: the taking of a request, the release of the select line and the power-on
reset (R143). -/
def givesRoom (c : Instr) : Prop :=
  c.requestKind.isSome = true ∨ c = .unknownKind ∨ c = .selectRelease ∨ c = .powerOnReset

/-- A command took `s` to `t` as R143 and R144 allow: HOLD is the old one redrawn from the new free count, the count falls
at the taking of a header alone, and rises where room is given back alone. -/
structure ReceiptStep (c : Instr) (s t : State) : Prop where
  redrawn : t.receipt = ({ t.receipt with hold := s.link.hold } : MessageLink).drawHold
  falls : t.link.rxFree < s.link.rxFree → ∃ b, c = .headerTaken b
  rises : s.link.rxFree < t.link.rxFree → givesRoom c

/-- HOLD after a step, from the hysteresis of the draw (R144). -/
theorem ReceiptStep.hold_agrees {c : Instr} {s t : State} (h : ReceiptStep c s t) :
    (t.link.rxFree < 4608 → t.link.hold = true) ∧ (9216 ≤ t.link.rxFree → t.link.hold = false) ∧
    (4608 ≤ t.link.rxFree → t.link.rxFree < 9216 → t.link.hold = s.link.hold) := by
  have hdraw := MessageLink.drawHold_agrees { t.receipt with hold := s.link.hold }
  rw [← h.redrawn] at hdraw
  exact hdraw

/-- A command that leaves the receiving side of a sound link alone: HOLD agrees with the free count already. -/
theorem ReceiptStep.of_kept {c : Instr} {s t : State} (hs : s.link.sound) (h : t.receipt = s.receipt) :
    ReceiptStep c s t := by
  obtain ⟨-, -, -, hlow, hhigh⟩ := hs
  have hfree : t.link.rxFree = s.link.rxFree := by rw [← State.receipt_rxFree t, h, State.receipt_rxFree]
  refine ⟨?_, fun hlt => absurd hlt (by omega), fun hlt => absurd hlt (by omega)⟩
  rw [h]
  exact (MessageLink.drawHold_eq_self s.receipt hlow hhigh).symm

theorem ReceiptStep.refl {c : Instr} {s : State} (hs : s.link.sound) : ReceiptStep c s s := .of_kept hs rfl

/-- A command that draws HOLD for a new framing state and new frames; the free count moves against the reservation. -/
theorem ReceiptStep.of_redrawn {c : Instr} {s t : State} (fr : Framing) (fs : List Frame)
    (h : t.receipt = ({ s.receipt with framing := fr, frames := fs } : MessageLink).drawHold)
    (hgrows : s.link.reserved < t.link.reserved → ∃ b, c = .headerTaken b)
    (hshrinks : t.link.reserved < s.link.reserved → givesRoom c) : ReceiptStep c s t := by
  refine ⟨?_, fun hlt => hgrows ?_, fun hlt => hshrinks ?_⟩
  · rw [h]
    rfl
  · unfold MessageLink.rxFree at hlt
    omega
  · unfold MessageLink.rxFree at hlt
    omega

theorem State.reserved_of_redrawn {s t : State} {fr : Framing} {fs : List Frame}
    (h : t.receipt = ({ s.receipt with framing := fr, frames := fs } : MessageLink).drawHold) :
    t.link.reserved = (fs.map Frame.reserved).sum + fr.reserved := congrArg MessageLink.reserved h

/-- A command that changes the framing state to one with the same reservation. -/
theorem ReceiptStep.of_setFraming {c : Instr} {s t : State} {fr : Framing} (h : t.receipt = (s.setFraming fr).receipt)
    (hfr : fr.reserved = s.link.framing.reserved) : ReceiptStep c s t := by
  have hsame : t.link.reserved = s.link.reserved := by
    rw [State.reserved_of_redrawn (h.trans (s.receipt_setFraming fr)), hfr]
    rfl
  exact .of_redrawn fr s.link.frames h (fun hlt => absurd hlt (by omega)) (fun hlt => absurd hlt (by omega))

/-! ### The taking of requests -/

/-- The owner of a request leaves the receiving side as the release of its frame has made it. -/
def KeepsReceipt (body : Frame → State → Answer) : Prop := ∀ f s, (body f s).state.receipt = s.receipt

theorem answerOk_state (p : List Byte) (s : State) : (answerOk p s).state = s := rfl

theorem answerFrame_receipt (f : Frame) (a : Answer) : (answerFrame f a).receipt = a.state.receipt := by
  have hreply (s : State) (h : s.receipt = a.state.receipt) :
      (if a.reported.isEmpty then s else s.endWaits a.reported).receipt = a.state.receipt := by
    split
    · exact h
    · rw [State.receipt_endWaits, h]
  unfold answerFrame
  cases a.reply with
  | none => exact hreply _ rfl
  | some p => exact hreply _ rfl

theorem KeepsReceipt.fixedLength {body : Frame → State → Answer} (h : KeepsReceipt body) (n : Nat) :
    KeepsReceipt (fixedLength n body) := by
  intro f s
  unfold Sys2Proof.Machine.fixedLength
  split
  · exact h f s
  · rfl

theorem ReceiptStep.of_released {c : Instr} {s t : State} (hc : givesRoom c) (h : t.receipt = s.released.receipt) :
    ReceiptStep c s t := by
  have hle : t.link.reserved ≤ s.link.reserved :=
    (congrArg MessageLink.reserved h : t.receipt.reserved = _).trans_le s.reserved_released_le
  exact .of_redrawn s.link.framing s.link.frames.tail h (fun hlt => absurd hlt (by omega)) (fun _ => hc)

/-- The taking of a request whose owner keeps the receiving side: the frame's reservation is given back. -/
theorem ReceiptStep.of_takeRequest {accepts : Byte → Bool} {body : Frame → State → Answer} {c : Instr} {s t : State}
    (hs : s.link.sound) (hc : givesRoom c) (hbody : KeepsReceipt body) (ht : takeRequest accepts body s = .next t) :
    ReceiptStep c s t := by
  rcases takeRequest_cases accepts body s with ⟨f, -, -, htaken⟩ | hidle
  · cases htaken.symm.trans ht
    exact .of_released hc (by rw [answerFrame_receipt, hbody])
  · cases hidle.symm.trans ht
    exact .refl hs

theorem ReceiptStep.of_request {kind : Byte} {body : Frame → State → Answer} {c : Instr} {s t : State}
    (hs : s.link.sound) (hc : c.requestKind.isSome = true) (hbody : KeepsReceipt body)
    (ht : request kind body s = .next t) : ReceiptStep c s t :=
  .of_takeRequest hs (.inl hc) hbody ht

/-- A request of fixed length whose owner keeps the receiving side (R153). -/
theorem ReceiptStep.of_fixedRequest {kind : Byte} {n : Nat} {body : Frame → State → Answer} {c : Instr} {s t : State}
    (hs : s.link.sound) (hc : c.requestKind.isSome = true) (hbody : KeepsReceipt body)
    (ht : request kind (fixedLength n body) s = .next t) : ReceiptStep c s t :=
  .of_request hs hc (hbody.fixedLength n) ht

theorem keepsReceipt_query (st : Status) (p : Frame → State → List Byte) : KeepsReceipt fun f s => answer st (p f s) s :=
  fun _ _ => rfl

theorem keepsReceipt_panelSetup : KeepsReceipt panelSetupBody := by
  intro f s
  unfold panelSetupBody
  split <;> rfl

theorem keepsReceipt_writeImage : KeepsReceipt writeImageBody := by
  intro f s
  unfold writeImageBody
  dsimp only
  repeat' split
  all_goals rfl

theorem keepsReceipt_fillImage : KeepsReceipt fillImageBody := by
  intro f s
  unfold fillImageBody
  dsimp only
  split <;> rfl

theorem keepsReceipt_read (plane : PixelStore → Plane) : KeepsReceipt (readBody plane) := by
  intro f s
  unfold readBody
  dsimp only
  repeat' split
  all_goals rfl

theorem keepsReceipt_loadWaveform : KeepsReceipt loadWaveformBody := by
  intro f s
  unfold loadWaveformBody
  dsimp only
  repeat' split
  all_goals rfl

theorem keepsReceipt_commitWaveform : KeepsReceipt commitWaveformBody := by
  intro f s
  unfold commitWaveformBody
  dsimp only
  repeat' split
  all_goals rfl

theorem keepsReceipt_eraseWaveform : KeepsReceipt eraseWaveformBody := by
  intro f s
  unfold eraseWaveformBody
  repeat' split
  all_goals rfl

theorem keepsReceipt_setBands : KeepsReceipt setBandsBody := by
  intro f s
  unfold setBandsBody
  dsimp only
  repeat' split
  all_goals rfl

theorem keepsReceipt_setSensor : KeepsReceipt setSensorBody := by
  intro f s
  unfold setSensorBody
  dsimp only
  split <;> rfl

theorem keepsReceipt_startUpdate : KeepsReceipt startUpdateBody := by
  intro f s
  unfold startUpdateBody
  dsimp only
  repeat' split
  all_goals rfl

theorem keepsReceipt_cancelUpdate : KeepsReceipt cancelUpdateBody := fun f s => by
  simp only [cancelUpdateBody, answerOk_state, State.receipt_settlePass, State.receipt_leaveQueue]
  rfl

theorem keepsReceipt_stopAll : KeepsReceipt stopAllBody := fun f s => by
  simp only [stopAllBody, answerOk_state, State.receipt_settlePass, State.receipt_leaveQueue]
  rfl

theorem keepsReceipt_queryTiles : KeepsReceipt queryTilesBody := by
  intro f s
  unfold queryTilesBody
  dsimp only
  repeat' split
  all_goals rfl

theorem keepsReceipt_markTiles : KeepsReceipt markTilesBody := by
  intro f s
  unfold markTilesBody
  dsimp only
  repeat' split
  all_goals rfl

theorem keepsReceipt_setPolicy : KeepsReceipt setPolicyBody := by
  intro f s
  unfold setPolicyBody
  dsimp only
  split <;> rfl

theorem keepsReceipt_railResume : KeepsReceipt railResumeBody := by
  intro f s
  unfold railResumeBody
  split <;> rfl

theorem keepsReceipt_setNotices : KeepsReceipt setNoticesBody := by
  intro f s
  unfold setNoticesBody
  dsimp only
  split <;> rfl

theorem keepsReceipt_waitUpdate : KeepsReceipt waitUpdateBody := by
  intro f s
  unfold waitUpdateBody
  dsimp only
  repeat' split
  all_goals rfl

/-! ### The resets -/

/-- HOLD is released where the whole receive buffer is free, whatever it was (R144). -/
theorem MessageLink.drawHold_of_rxFree {l : MessageLink} (h : l.rxFree = 16384) : l.drawHold = { l with hold := false } := by
  simp [MessageLink.drawHold, h, Config.holdBelow, Config.releaseFrom]

/-- A reset leaves the receive buffer empty and HOLD released; the free count was never larger. -/
theorem ReceiptStep.of_empty {c : Instr} {s t : State} (hc : givesRoom c) (hfree : t.link.rxFree = 16384)
    (hhold : t.link.hold = false) : ReceiptStep c s t := by
  refine ⟨?_, fun hlt => absurd hlt ?_, fun _ => hc⟩
  · have hempty : ({ t.receipt with hold := s.link.hold } : MessageLink).rxFree = 16384 := hfree
    rw [MessageLink.drawHold_of_rxFree hempty, ← hhold]
    rfl
  · rw [hfree]
    exact Nat.not_lt.mpr (Nat.sub_le _ _)

/-- A soft reset leaves no frame and no reservation (R150). -/
theorem State.softReset_reserved (s : State) : s.softReset.link.reserved = 0 := by
  have hframing : s.link.framing.softReset.reserved = 0 := by
    cases s.link.framing <;> rfl
  simpa [State.softReset, MessageLink.drawHold, MessageLink.reserved] using hframing

theorem State.softReset_rxFree (s : State) : s.softReset.link.rxFree = 16384 := by
  rw [MessageLink.rxFree, State.softReset_reserved]
  rfl

/-- HOLD is released by a soft reset, whatever it was (R144, R150). -/
theorem State.softReset_hold (s : State) : s.softReset.link.hold = false :=
  (MessageLink.drawHold_agrees _).2.1 (s.softReset_rxFree.symm ▸ (by decide : Config.releaseFrom ≤ 16384))

theorem ReceiptStep.of_resetPart {s t : State} (hs : s.link.sound) (ht : execResetPart s = .next t) :
    ReceiptStep .resetPart s t := by
  rcases takeRequest_cases _ _ s with ⟨f, -, -, htaken⟩ | hidle
  · cases htaken.symm.trans ht
    by_cases hlength : f.payload.length = 0
    · rw [fixedLength_of_length hlength]
      exact .of_empty (.inl rfl) (State.softReset_rxFree _) (State.softReset_hold _)
    · rw [fixedLength_of_ne hlength]
      exact .of_released (.inl rfl) rfl
  · cases hidle.symm.trans ht
    exact .refl hs

theorem ReceiptStep.of_powerOnReset {s t : State} (ht : execPowerOnReset s = .next t) : ReceiptStep .powerOnReset s t := by
  cases ht
  exact .of_empty (.inr (.inr (.inr rfl))) rfl rfl

/-! ### The bytes of the host port -/

/-- The outcome of a byte that at most changes the framing state, to one with the same reservation. -/
def Reframes (s : State) (o : Outcome) : Prop :=
  o = .next s ∨ ∃ fr, fr.reserved = s.link.framing.reserved ∧ o = .next (s.setFraming fr)

theorem Reframes.of_framing {s : State} {old fr : Framing} (hold : s.link.framing = old) (hfr : fr.reserved = old.reserved) :
    Reframes s (.next (s.setFraming fr)) := .inr ⟨fr, hold ▸ hfr, rfl⟩

theorem Reframes.ite {s : State} {o : Outcome} {p : Prop} [Decidable p] (h : Reframes s o) :
    Reframes s (if p then o else .next s) := by
  split
  · exact h
  · exact .inl rfl

theorem ReceiptStep.of_reframes {c : Instr} {s t : State} (hs : s.link.sound) (h : Reframes s (.next t)) :
    ReceiptStep c s t := by
  rcases h with hidle | ⟨fr, hfr, hframed⟩
  · cases hidle
    exact .refl hs
  · cases hframed
    exact .of_setFraming rfl hfr

theorem reframes_transactionPrefix (b : Byte) (s : State) : Reframes s (execTransactionPrefix b s) := by
  unfold execTransactionPrefix
  split
  case h_1 hf =>
    refine .of_framing hf ?_
    split
    · rfl
    · split <;> rfl
  case h_2 => exact .inl rfl

theorem reframes_skipEnd (b : Byte) (s : State) : Reframes s (execSkipEnd b s) := by
  unfold execSkipEnd
  split
  case h_1 hf => exact .of_framing hf rfl
  case h_2 => exact .inl rfl

theorem reframes_frameByteReceived (b : Byte) (s : State) : Reframes s (execFrameByteReceived b s) := by
  unfold execFrameByteReceived
  split
  case h_1 hf => exact .ite (.of_framing hf rfl)
  case h_2 hf => exact .ite (.of_framing hf rfl)
  case h_3 hf => exact .ite (.of_framing hf rfl)
  case h_4 hf => exact .ite (.of_framing hf rfl)
  case h_5 hf =>
    split
    · exact .of_framing hf rfl
    · exact .ite (.of_framing hf rfl)
  case h_6 => exact .inl rfl

theorem ReceiptStep.of_badSync {b : Byte} {s t : State} (hs : s.link.sound) (ht : execBadSync b s = .next t) :
    ReceiptStep (.badSync b) s t := by
  unfold execBadSync at ht
  split at ht
  case h_1 hf =>
    split at ht <;> cases ht
    · exact .refl hs
    · exact .of_setFraming (State.receipt_receiptReply _ _) (by rw [hf]; rfl)
  case h_2 =>
    cases ht
    exact .refl hs

/-- The taking of a header draws HOLD for the frame it reserves, and from a header the reservation cannot shrink. -/
theorem ReceiptStep.of_headerTaken {b : Byte} {s t : State} (hs : s.link.sound) (ht : execHeaderTaken b s = .next t) :
    ReceiptStep (.headerTaken b) s t := by
  unfold execHeaderTaken at ht
  split at ht
  case h_1 sync kind lo hi n0 hf =>
    have hnone : s.link.framing.reserved = 0 := by rw [hf]; rfl
    cases ht
    unfold State.takeHeader
    split
    · exact .of_setFraming (State.receipt_receiptReply _ _) hnone.symm
    · split
      · refine .of_setFraming (State.receipt_receiptReply _ _) ?_
        rw [hnone]
        split <;> rfl
      · split
        · refine .of_redrawn _ _ rfl (fun _ => ⟨b, rfl⟩) (fun hlt => absurd hlt (Nat.not_lt.mpr ?_))
          simp [MessageLink.reserved, hnone, Nat.add_assoc]
        · refine .of_redrawn _ _ rfl (fun _ => ⟨b, rfl⟩) (fun hlt => absurd hlt (Nat.not_lt.mpr ?_))
          simp [MessageLink.reserved, hnone]
  case h_2 =>
    cases ht
    exact .refl hs

/-- A frame that is complete keeps the room it had reserved. -/
theorem ReceiptStep.of_frameComplete {b : Byte} {s t : State} (hs : s.link.sound) (ht : execFrameComplete b s = .next t) :
    ReceiptStep (.frameComplete b) s t := by
  unfold execFrameComplete at ht
  split at ht
  case h_1 kind tag n got hf =>
    split at ht <;> cases ht
    case isTrue hn =>
      have hsame : ((s.link.frames ++ [({ kind := kind, tag := tag, payload := got ++ [b] } : Frame)]).map Frame.reserved).sum +
          Framing.reserved (.header []) = s.link.reserved := by
        simp [MessageLink.reserved, Frame.reserved, Framing.reserved, hf, hn]
      exact .of_redrawn _ _ rfl (fun hlt => absurd hsame hlt.ne') (fun hlt => absurd hsame hlt.ne)
    case isFalse => exact .refl hs
  case h_2 =>
    cases ht
    exact .refl hs

theorem ReceiptStep.of_replySent {s t : State} (hs : s.link.sound) (ht : execReplySent s = .next t) :
    ReceiptStep .replySent s t := by
  rcases execReplySent_cases s with hidle | ⟨sent, r, rs, hf, -, -, hsent⟩
  · cases hidle.symm.trans ht
    exact .refl hs
  · cases hsent.symm.trans ht
    exact .of_setFraming (State.receipt_popReply _) (by rw [hf]; rfl)

/-- The receiving side after the release of the select line: the frames that are complete, and no transaction (R142). -/
theorem receipt_of_execSelectRelease {s t : State} (ht : execSelectRelease s = .next t) :
    t.receipt = (s.setFraming .selectWait).receipt := by
  unfold execSelectRelease at ht
  dsimp only at ht
  split at ht <;> cases ht
  · exact State.receipt_receiptReply _ _
  · rfl

theorem ReceiptStep.of_selectRelease {s t : State} (ht : execSelectRelease s = .next t) :
    ReceiptStep .selectRelease s t := by
  have hreceipt := receipt_of_execSelectRelease ht
  have hle : t.link.reserved ≤ s.link.reserved := by
    rw [State.reserved_of_redrawn (hreceipt.trans (s.receipt_setFraming _))]
    exact Nat.add_le_add_left (Nat.zero_le _) _
  exact .of_redrawn _ _ hreceipt (fun hlt => absurd hlt (by omega)) (fun _ => .inr (.inr (.inl rfl)))

/-! ### Events inside the part

The commands that are neither an event of the host port, nor the taking of a request, nor a reset leave the receiving side
as it was. -/

theorem receipt_of_execSensorCycleEnd {w : SensorWord} {s t : State} (h : execSensorCycleEnd w s = .next t) :
    t.receipt = s.receipt := by
  unfold execSensorCycleEnd at h
  split at h
  · dsimp only at h
    split at h <;> cases h <;> simp [State.receipt_eq_iff]
  · cases h
    rfl

theorem receipt_of_execEntryExamination {s t : State} (h : execEntryExamination s = .next t) : t.receipt = s.receipt := by
  unfold execEntryExamination at h
  split at h
  · split at h
    · split at h <;> cases h <;> simp [State.receipt_eq_iff]
    · cases h
      rfl
  · cases h
    rfl

theorem receipt_of_execFrameStart {s t : State} (h : execFrameStart s = .next t) : t.receipt = s.receipt := by
  unfold execFrameStart at h
  split at h <;> cases h
  · rw [State.receipt_settlePass]
    rfl
  · rfl

theorem receipt_of_execFrameEnd {s t : State} (h : execFrameEnd s = .next t) : t.receipt = s.receipt := by
  unfold execFrameEnd at h
  split at h <;> cases h <;> simp [State.receipt_eq_iff]

theorem receipt_of_execPwrGoodLoss {s t : State} (h : execPwrGoodLoss s = .next t) : t.receipt = s.receipt := by
  unfold execPwrGoodLoss at h
  dsimp only at h
  split at h <;> cases h <;> simp [State.receipt_eq_iff]

theorem receipt_of_execTimebaseTick {s t : State} (h : execTimebaseTick s = .next t) : t.receipt = s.receipt := by
  cases h
  simp only [State.receipt_eq_iff]
  split <;> simp

theorem receipt_of_execSensorTimerExpiry {s t : State} (h : execSensorTimerExpiry s = .next t) :
    t.receipt = s.receipt := by
  unfold execSensorTimerExpiry at h
  split at h <;> cases h <;> rfl

theorem receipt_of_execGapEnd {s t : State} (h : execGapEnd s = .next t) : t.receipt = s.receipt := by
  unfold execGapEnd at h
  split at h <;> cases h <;> rfl

theorem receipt_of_execWaitTimeCheckExpiry {s t : State} (h : execWaitTimeCheckExpiry s = .next t) :
    t.receipt = s.receipt := by
  unfold execWaitTimeCheckExpiry at h
  split at h <;> cases h
  · simp [State.receipt_eq_iff]
  · rfl

theorem receipt_of_execWaitReplyPlaced {s t : State} (h : execWaitReplyPlaced s = .next t) : t.receipt = s.receipt := by
  unfold execWaitReplyPlaced at h
  split at h
  · split at h <;> cases h <;> rfl
  · cases h
    rfl

theorem receipt_of_execAttnPulseEnd {s t : State} (h : execAttnPulseEnd s = .next t) : t.receipt = s.receipt := by
  unfold execAttnPulseEnd at h
  split at h <;> cases h <;> rfl

theorem receipt_of_execPwrGoodActive {s t : State} (h : execPwrGoodActive s = .next t) : t.receipt = s.receipt := by
  unfold execPwrGoodActive at h
  split at h <;> cases h
  · split <;> rfl
  · rfl

theorem receipt_of_execRampTimerExpiry {s t : State} (h : execRampTimerExpiry s = .next t) : t.receipt = s.receipt := by
  unfold execRampTimerExpiry at h
  split at h <;> cases h <;> rfl

theorem receipt_of_execDischargeTimerExpiry {s t : State} (h : execDischargeTimerExpiry s = .next t) :
    t.receipt = s.receipt := by
  unfold execDischargeTimerExpiry at h
  split at h <;> cases h
  · dsimp only
    split <;> rfl
  · rfl

/-! ### Every command -/

/-- Said once for every command: what it may do to the receiving side of a sound link. -/
theorem exec_receiptStep (c : Instr) {s t : State} (hs : s.link.sound) (ht : exec c s = .next t) : ReceiptStep c s t := by
  cases c with
  | powerOnReset => exact .of_powerOnReset ht
  | transactionPrefix b => exact .of_reframes hs (ht ▸ reframes_transactionPrefix b s)
  | badSync b => exact .of_badSync hs ht
  | headerTaken b => exact .of_headerTaken hs ht
  | frameComplete b => exact .of_frameComplete hs ht
  | skipEnd b => exact .of_reframes hs (ht ▸ reframes_skipEnd b s)
  | frameByteReceived b => exact .of_reframes hs (ht ▸ reframes_frameByteReceived b s)
  | selectRelease => exact .of_selectRelease ht
  | replySent => exact .of_replySent hs ht
  | waitReplyPlaced => exact .of_kept hs (receipt_of_execWaitReplyPlaced ht)
  | unknownKind => exact .of_takeRequest hs (.inr (.inl rfl)) (keepsReceipt_query .unknownKind fun _ _ => []) ht
  | status => exact .of_fixedRequest hs rfl (keepsReceipt_query .ok fun _ s => s.statusRecord) ht
  | resetPart => exact .of_resetPart hs ht
  | panelSetup => exact .of_fixedRequest hs rfl keepsReceipt_panelSetup ht
  | writeImage => exact .of_request hs rfl keepsReceipt_writeImage ht
  | fillImage => exact .of_fixedRequest hs rfl keepsReceipt_fillImage ht
  | readImage => exact .of_fixedRequest hs rfl (keepsReceipt_read _) ht
  | readPanel => exact .of_fixedRequest hs rfl (keepsReceipt_read _) ht
  | loadWaveform => exact .of_request hs rfl keepsReceipt_loadWaveform ht
  | commitWaveform => exact .of_fixedRequest hs rfl keepsReceipt_commitWaveform ht
  | eraseWaveform => exact .of_fixedRequest hs rfl keepsReceipt_eraseWaveform ht
  | listWaveforms => exact .of_fixedRequest (body := listWaveformsBody) hs rfl (fun _ _ => rfl) ht
  | setBands => exact .of_fixedRequest hs rfl keepsReceipt_setBands ht
  | setSensor => exact .of_fixedRequest hs rfl keepsReceipt_setSensor ht
  | sampleNow => exact .of_fixedRequest (body := sampleNowBody) hs rfl (fun _ _ => rfl) ht
  | sensorTimerExpiry => exact .of_kept hs (receipt_of_execSensorTimerExpiry ht)
  | sensorCycleEnd w => exact .of_kept hs (receipt_of_execSensorCycleEnd ht)
  | gapEnd => exact .of_kept hs (receipt_of_execGapEnd ht)
  | timebaseTick => exact .of_kept hs (receipt_of_execTimebaseTick ht)
  | startUpdate => exact .of_fixedRequest hs rfl keepsReceipt_startUpdate ht
  | cancelUpdate => exact .of_fixedRequest hs rfl keepsReceipt_cancelUpdate ht
  | queryQueue => exact .of_fixedRequest (body := queryQueueBody) hs rfl (fun _ _ => rfl) ht
  | queryTiles => exact .of_fixedRequest hs rfl keepsReceipt_queryTiles ht
  | markTiles => exact .of_fixedRequest hs rfl keepsReceipt_markTiles ht
  | setPolicy => exact .of_fixedRequest hs rfl keepsReceipt_setPolicy ht
  | stopAll => exact .of_fixedRequest hs rfl keepsReceipt_stopAll ht
  | querySlots => exact .of_fixedRequest (body := querySlotsBody) hs rfl (fun _ _ => rfl) ht
  | setRails => exact .of_fixedRequest (body := setRailsBody) hs rfl (fun _ _ => rfl) ht
  | railResume => exact .of_fixedRequest hs rfl keepsReceipt_railResume ht
  | setNotices => exact .of_fixedRequest hs rfl keepsReceipt_setNotices ht
  | fetchNotices => exact .of_fixedRequest (body := fetchNoticesBody) hs rfl (fun _ _ => rfl) ht
  | waitUpdate => exact .of_fixedRequest hs rfl keepsReceipt_waitUpdate ht
  | waitTimeCheckExpiry => exact .of_kept hs (receipt_of_execWaitTimeCheckExpiry ht)
  | attnPulseEnd => exact .of_kept hs (receipt_of_execAttnPulseEnd ht)
  | pwrGoodActive => exact .of_kept hs (receipt_of_execPwrGoodActive ht)
  | rampTimerExpiry => exact .of_kept hs (receipt_of_execRampTimerExpiry ht)
  | pwrGoodLoss => exact .of_kept hs (receipt_of_execPwrGoodLoss ht)
  | dischargeTimerExpiry => exact .of_kept hs (receipt_of_execDischargeTimerExpiry ht)
  | frameStart => exact .of_kept hs (receipt_of_execFrameStart ht)
  | entryExamination => exact .of_kept hs (receipt_of_execEntryExamination ht)
  | frameEnd => exact .of_kept hs (receipt_of_execFrameEnd ht)

/-- Settles O11: every command is a step of the receiving side, a power-on reset empties it, and a header is taken without
regard to HOLD. -/
theorem holdFollowsFreeCount : Obligations.HoldFollowsFreeCount := by
  refine ⟨fun c s t hs ht => ?_, fun s t ht => ?_, fun b h s t u ht hu => ?_⟩
  · have hstep := exec_receiptStep c hs ht
    obtain ⟨hlow, hhigh, hbetween⟩ := hstep.hold_agrees
    exact ⟨hlow, hhigh, hbetween, hstep.falls, hstep.rises⟩
  · cases ht
    exact ⟨rfl, rfl⟩
  · obtain ⟨h', hheld⟩ := execHeaderTaken_withHold b h s t ht
    cases hheld.symm.trans hu
    exact ⟨rfl, rfl, rfl⟩

/-! ### A wrong sync byte -/

theorem requestKind_ne_zero (c : Instr) : c.requestKind ≠ some 0x00#8 := by
  cases c <;> simp [Instr.requestKind]

/-- In a discarded transaction no byte does anything (R140). -/
theorem exec_of_discard {t : State} (h : t.link.framing = .discard) (d : Byte) :
    ∀ c ∈ [Instr.transactionPrefix d, .badSync d, .headerTaken d, .frameComplete d, .skipEnd d, .frameByteReceived d],
      exec c t = .next t := by
  simp [exec, execTransactionPrefix, execBadSync, execHeaderTaken, execFrameComplete, execSkipEnd,
    execFrameByteReceived, h]

theorem exec_badSync_of_ne {b : Byte} {s : State} (hf : s.link.framing = .header []) (hb : b ≠ 0xC3#8) :
    exec (.badSync b) s = .next ((s.setFraming .discard).receiptReply
      { kind := 0x00#8, tag := 0xFFFF#16, status := .framing, payload := [0x00#8] }) := by
  change execBadSync b s = _
  unfold execBadSync
  rw [hf]
  exact if_neg hb

/-- Settles O6: the reply on receipt leaves the framing state and the frames to the discard. -/
theorem badSyncDiscards : Obligations.BadSyncDiscards := by
  refine ⟨requestKind_ne_zero, fun b s hf hb => ⟨_, exec_badSync_of_ne hf hb, rfl, ?_, ?_, exec_of_discard ?_⟩⟩ <;> simp

/-! ### The release of the select line -/

theorem exec_selectRelease_of_cut {s : State} {r : Reply} (h : s.link.framing.cutReply = some r) :
    exec .selectRelease s = .next ((s.setFraming .selectWait).receiptReply r) := by
  change execSelectRelease s = _
  simp only [execSelectRelease, h]

theorem exec_selectRelease_of_none {s : State} (h : s.link.framing.cutReply = none) :
    exec .selectRelease s = .next (s.setFraming .selectWait) := by
  change execSelectRelease s = _
  simp only [execSelectRelease, h]

/-- The reply to a header cut short carries its kind from byte 1 on and its tag from byte 3 on (R142). -/
theorem Framing.cutReply_header {got : List Byte} (h : 1 ≤ got.length) : (Framing.header got).cutReply =
    some { kind := if 2 ≤ got.length then got.getD 1 0#8 else 0x00#8,
           tag := if 4 ≤ got.length then got.getD 3 0#8 ++ got.getD 2 0#8 else 0xFFFF#16,
           status := .framing, payload := [0x01#8] } := by
  match got, h with
  | [_], _ => rfl
  | [_, _], _ => rfl
  | [_, _, _], _ => rfl
  | _ :: _ :: _ :: _ :: _, _ => simp [Framing.cutReply, framingReply, headerTag, reasonCut, encU8]

theorem Framing.cutReply_eq_none {fr : Framing} (hheader : ∀ got, fr = .header got → got = [])
    (hpayload : ∀ kind tag n got, fr ≠ .payload kind tag n got) : fr.cutReply = none := by
  cases fr with
  | header got => rw [hheader got rfl]; rfl
  | payload kind tag n got => exact absurd rfl (hpayload kind tag n got)
  | _ => rfl

/-- The release of a frame cut in its payload gives its whole reservation back (R143). -/
theorem State.rxFree_setFraming_selectWait {s : State} {kind : Byte} {tag : Tag} {n : Nat} {got : List Byte}
    (hf : s.link.framing = .payload kind tag n got) (hs : s.link.reserved ≤ 16384) :
    (s.setFraming .selectWait).link.rxFree = s.link.rxFree + (6 + n) := by
  have hcut : s.link.reserved = (s.setFraming .selectWait).link.reserved + (6 + n) := by
    simp [MessageLink.reserved, Framing.reserved, hf, Config.requestHeaderBytes]
  simp only [MessageLink.rxFree, Config.receiveBytes]
  omega

/-- Settles O10, by the cut reply of each framing state. -/
theorem selectRelease : Obligations.SelectRelease := by
  refine fun s => ⟨fun got hf hgot => ?_, fun kind tag n got hf => ⟨?_, State.rxFree_setFraming_selectWait hf⟩,
    fun hheader hpayload => exec_selectRelease_of_none (Framing.cutReply_eq_none hheader hpayload), fun t ht => ?_⟩
  · exact exec_selectRelease_of_cut (by rw [hf, Framing.cutReply_header hgot])
  · exact exec_selectRelease_of_cut (by rw [hf]; rfl)
  · obtain ⟨hframing, hframes, -⟩ := (State.receipt_eq_iff _ _).mp (receipt_of_execSelectRelease ht)
    exact ⟨hframing, hframes⟩

end Sys2Proof.Machine
end

section
/-! PROOF. The blocks behind the host port: what every command may do to them, said once. Notices and the Message Link are
left out of the view; an invariant of the other blocks is then an invariant of one inductive relation. -/

namespace Sys2Proof.Machine

/-! ### The view -/

/-- The state with the Notice Unit and the Message Link blank. -/
def State.core (s : State) : State := { s with notice := .reset, link := .reset }

theorem State.core_eq_iff (s t : State) : t.core = s.core ↔
    t.pixel = s.pixel ∧ t.wave = s.wave ∧ t.temp = s.temp ∧ t.sched = s.sched ∧ t.ghost = s.ghost ∧ t.frame = s.frame ∧
    t.rail = s.rail ∧ t.pending = s.pending := by
  simp [State.core]

@[simp] theorem State.core_released (s : State) : s.released.core = s.core := rfl
@[simp] theorem State.core_raise (k : NoticeKind) (s : State) : (s.raise k).core = s.core := rfl
@[simp] theorem State.core_pushReply (r : Reply) (s : State) : (s.pushReply r).core = s.core := rfl
@[simp] theorem State.core_setFraming (fr : Framing) (s : State) : (s.setFraming fr).core = s.core := rfl
@[simp] theorem State.core_popReply (s : State) : s.popReply.core = s.core := rfl
@[simp] theorem State.core_drop (S : KindSet) (s : State) : (s.drop S).core = s.core := rfl
@[simp] theorem State.core_drawAttn (c : Bool) (s : State) : (s.drawAttn c).core = s.core := rfl

@[simp] theorem State.core_serveWaits (s : State) : s.serveWaits.core = s.core := by simp [State.core_eq_iff]

@[simp] theorem State.core_receiptReply (r : Reply) (s : State) : (s.receiptReply r).core = s.core := by
  simp [State.core_eq_iff]

@[simp] theorem State.core_endWaits (ts : List Tag) (s : State) : (s.endWaits ts).core = s.core := by
  simp [State.core_eq_iff]

@[simp] theorem State.core_joinRecord (r : CompletionRecord) (s : State) : (s.joinRecord r).core = s.core := by
  simp [State.core_eq_iff]

@[simp] theorem State.core_idleNotice (fs : List Slot) (s : State) : (s.idleNotice fs).core = s.core := by
  simp [State.core_eq_iff]

theorem State.core_leaveQueue (q : List PendingEntry) (s : State) :
    (s.leaveQueue q).core = ({ s with sched.queue := q } : State).core := by
  have hsched : (s.leaveQueue q).sched = { queue := q } := congrArg Scheduler.mk (State.leaveQueue_queue q s)
  simp [State.core_eq_iff, hsched]

/-- The end of an admission pass reads and writes the blocks of the view alone. -/
theorem State.core_settlePass_congr {s t : State} (h : t.core = s.core) : t.settlePass.core = s.settlePass.core := by
  have hcomm (u : State) : u.settlePass.core = u.core.settlePass := by
    unfold State.settlePass
    change (match u.frame.phase with
      | .pass n => if u.sched.queue.length ≤ n then u.concludeStart else u
      | _ => u).core = match u.frame.phase with
      | .pass n => if u.sched.queue.length ≤ n then u.core.concludeStart else u.core
      | _ => u.core
    have hconclude : u.concludeStart.core = u.core.concludeStart := by
      unfold State.concludeStart
      change (if u.quiet ∧ u.rail.lingerFrames ≤ u.nextIdle then _ else _ : State).core =
        if u.quiet ∧ u.rail.lingerFrames ≤ u.nextIdle then _ else _
      split <;> rfl
    split
    · split
      · exact hconclude
      · rfl
    · rfl
  rw [hcomm, hcomm, h]

/-! ### What the commands do -/

/-- What a command may do to the Temperature Unit alone. -/
inductive SensorStep (u : TemperatureUnit) : Instr → TemperatureUnit → Prop
  /-- A table that R49 allows, the band recomputed from the last valid sample (R51). -/
  | setBands (bs : List Int) (hlength : bs.length ≤ 7) (hchain : bs.IsChain (· < ·)) (hrange : ∀ b ∈ bs, -40 ≤ b ∧ b ≤ 85) :
      SensorStep u .setBands { u with
        boundaries := bs, reference := none, band := match u.lastValid with
          | some t => directBand bs t
          | none => 0 }
  /-- New settings, and the divider count at 0 (R53). -/
  | setSensor (g : SensorSettings) (mode : ComparatorMode) (ref : Option Bool) (hmin : 1 ≤ g.divider) (hmax : g.divider ≤ 255) :
      SensorStep u .setSensor { u with
        settings := g, divider := 0, timer := g.startTimer, comparator := mode, reference := ref }
  | sampleNow : SensorStep u .sampleNow u.trigger
  | timerExpiry : SensorStep u .sensorTimerExpiry ({ u with timer := some u.settings.period } : TemperatureUnit).trigger
  | gapEnd : SensorStep u .gapEnd { u with cycle := .ready }
  /-- The end of a failed cycle (R47). -/
  | failed (w : SensorWord) (n : Nat) (st : SensorStatus) (hn : n ≤ Config.maxFailures) :
      SensorStep u (.sensorCycleEnd w) { u with cycle := .gap u.settings.gap, failures := n, status := st }
  /-- The end of a valid cycle: the band and each latch stay or follow from the sample (R48, R50, R52). -/
  | valid (w : SensorWord) (t : Int) (band : Fin 8) (bandLatch noticeLatch : Option Int) (mode : ComparatorMode)
      (ref : Option Bool) (hsample : decodeSample w = some t) (hband : band = u.band ∨ band = directBand u.boundaries t)
      (hlatch : bandLatch = u.bandLatch ∨ bandLatch = some t) (hnotice : noticeLatch = u.noticeLatch ∨ noticeLatch = some t) :
      SensorStep u (.sensorCycleEnd w) { u with
        cycle := .gap u.settings.gap, lastValid := some t, failures := 0, status := .valid, fresh := true, band := band,
        bandLatch := bandLatch, noticeLatch := noticeLatch, comparator := mode, reference := ref }

/-- The charges of the image in the staging buffer (R31). -/
def WaveformStore.imageCharges (w : WaveformStore) : List Int :=
  (w.imageSequences (w.stagingByte 2).toNat (w.stagingByte 3).toNat).map sequenceCharge

/-- The slots as a frame end leaves them, before the held commit is looked at (R103). -/
def State.frameAdvanced (s : State) : State :=
  s.frame.admissions.foldl State.advanceSlot { s with frame.phase := .between, frame.driveActive := false }

/-- What a command may do to the blocks of the view: `CoreStep s c u` says that `c` may take `s` to a state that agrees
with `u` on them. A command whose event does not occur, or that is refused, keeps them. -/
inductive CoreStep (s : State) : Instr → State → Prop
  | kept (c : Instr) : CoreStep s c s
  | powerOnReset : CoreStep s .powerOnReset
      { State.reset with rail := { RailController.reset with pwrGood := s.rail.pwrGood }, pending := s.pending }
  | resetPart : CoreStep s .resetPart s.softReset
  | panelSetup (w h period : Nat) (hoff : s.rail.state = .off) (hquiet : s.quiet = true) (hw : w ≤ Config.planeStride) :
      CoreStep s .panelSetup { s with
        pixel := .setup w h, ghost.tiles := List.replicate (tilesAcross w * tilesAcross h) .fresh, frame.period := period }
  | paint (c : Instr) (r : Rect) (f : Nat → Nat → Level) (hc : c = .writeImage ∨ c = .fillImage) :
      CoreStep s c { s with pixel.image := s.pixel.image.paint r f }
  | load (offset : Nat) (chunk : List Byte) (hheld : s.wave.held = none) :
      CoreStep s .loadWaveform { s with wave := s.wave.load offset chunk }
  | install (m : Mode) (b : Fin 8) (length : Nat) (crc : BitVec 16) (himage : s.wave.imageFault m b length = none)
      (hheld : s.wave.held = none) (hfree : s.frame.users m b = 0) :
      CoreStep s .commitWaveform { s with wave := s.wave.putSet m b (some (s.wave.imageSet s.wave.imageCharges crc)) }
  | hold (h : HeldCommit) (himage : s.wave.heldSound h) :
      CoreStep s .commitWaveform { s with wave.held := some h }
  | erase (m : Mode) (b : Fin 8) (hfree : s.frame.users m b = 0) :
      CoreStep s .eraseWaveform { s with wave := s.wave.putSet m b none }
  | sensor (c : Instr) (u : TemperatureUnit) (hu : SensorStep s.temp c u) : CoreStep s c { s with temp := u }
  | tick : CoreStep s .timebaseTick s.stepTimers
  | tickOn (n : Nat) (hrail : s.rail.state = .rising n) : CoreStep s .timebaseTick s.stepTimers.enterOn
  | queued (e : PendingEntry) (hkept : s.pixel.kept e.rect e.hull) (hroom : s.sched.queue.length < Config.queueCapacity) :
      CoreStep s .startUpdate { s with sched.queue := s.sched.queue ++ [e] }
  | queuedRising (e : PendingEntry) (hkept : s.pixel.kept e.rect e.hull)
      (hroom : s.sched.queue.length < Config.queueCapacity) (hoff : s.rail.state = .off) :
      CoreStep s .startUpdate ({ s with sched.queue := s.sched.queue ++ [e] } : State).enterRising
  | cancel (gone : PendingEntry → Bool) :
      CoreStep s .cancelUpdate ({ s with
        frame.phase := s.frame.phase.without s.sched.queue gone,
        sched.queue := s.sched.queue.filter fun e => !gone e } : State).settlePass
  | mark (r : TileRect) (action : Nat) : CoreStep s .markTiles (s.mapTiles r fun _ _ t => markTile action t)
  | setPolicy (g : GhostPolicy) (hclear : g.weightClear ≤ 255) : CoreStep s .setPolicy { s with ghost.policy := g }
  | stopAll :
      CoreStep s .stopAll ({ s with
        frame := { s.frame with slots := s.frame.slots.map (Option.map Slot.stop), phase := s.frame.phase.passAt 0 },
        sched.queue := [] } : State).settlePass
  | setRails (ramp discharge linger : Nat) :
      CoreStep s .setRails { s with
        rail := { s.rail with rampTimeout := ramp, dischargeTime := discharge, lingerFrames := linger } }
  | resume (cause : FaultCause) (hrail : s.rail.state = .faulted cause) : CoreStep s .railResume s.enterFalling
  | pwrGood (c : Instr) (level : Bool) : CoreStep s c { s with rail.pwrGood := level }
  | pwrGoodOn (n : Nat) (hrail : s.rail.state = .rising n) :
      CoreStep s .pwrGoodActive ({ s with rail.pwrGood := true } : State).enterOn
  | rampFault (hrail : s.rail.state = .rising 0) : CoreStep s .rampTimerExpiry { s with rail.state := .faulted .ramp }
  | lost (hrail : s.rail.state = .on) : CoreStep s .pwrGoodLoss ({ s with rail.pwrGood := false } : State).supplyLoss
  | discharged (hrail : s.rail.state = .falling 0) : CoreStep s .dischargeTimerExpiry { s with rail.state := .off }
  | dischargedRising (hrail : s.rail.state = .falling 0) :
      CoreStep s .dischargeTimerExpiry ({ s with rail.state := .off } : State).enterRising
  | frameStart (hrail : s.rail.state = .on) (hphase : s.frame.phase = .between) :
      CoreStep s .frameStart ({ s with
        frame.counter := s.frame.counter + 1#16, frame.phase := .pass 0, temp := s.temp.frameStart } : State).settlePass
  | passed (n : Nat) (hrail : s.rail.state = .on) (hphase : s.frame.phase = .pass n) :
      CoreStep s .entryExamination s.settlePass
  | waits (n : Nat) (hrail : s.rail.state = .on) (hphase : s.frame.phase = .pass n) :
      CoreStep s .entryExamination (s.holdEntry n).settlePass
  | refused (n : Nat) (hrail : s.rail.state = .on) (hphase : s.frame.phase = .pass n) :
      CoreStep s .entryExamination ({ s with sched.queue := s.sched.queue.eraseIdx n } : State).settlePass
  | admitted (n : Nat) (i : Fin 16) (e : PendingEntry) (eff : Mode) (esc : Bool) (hrail : s.rail.state = .on)
      (hphase : s.frame.phase = .pass n) (hentry : s.sched.queue[n]? = some e) (hgo : s.admissible n e = true)
      (hfree : s.frame.freeSlot = some i) (hplan : s.plan e s.temp.band = .drive eff esc) :
      CoreStep s .entryExamination
        ({ s.fillSlot i e eff esc s.temp.band with sched.queue := s.sched.queue.eraseIdx n } : State).settlePass
  | frameEnd (hrail : s.rail.state = .on) (hphase : s.frame.phase = .driven) :
      CoreStep s .frameEnd (s.frameAdvanced.installHeld (freedSlots s s.frameAdvanced))

/-- A command takes `s` to `t` as one of the steps allows, up to what the taking of a request does to the link. -/
def CoreMoves (c : Instr) (s t : State) : Prop := ∃ r u, r.core = s.core ∧ CoreStep r c u ∧ t.core = u.core

theorem CoreMoves.of_step {c : Instr} {s t u : State} (h : CoreStep s c u) (ht : t.core = u.core) : CoreMoves c s t :=
  ⟨s, u, rfl, h, ht⟩

theorem CoreMoves.of_core {c : Instr} {s t : State} (h : t.core = s.core) : CoreMoves c s t := .of_step (.kept c) h

theorem CoreMoves.trans_core {c : Instr} {s t t' : State} (h : CoreMoves c s t) (ht : t'.core = t.core) :
    CoreMoves c s t' := by
  obtain ⟨r, u, hr, hstep, hu⟩ := h
  exact ⟨r, u, hr, hstep, ht.trans hu⟩

/-! ### The taking of requests -/

/-- The owner of a request moves the blocks of the view as the command may. -/
def OwnerMoves (c : Instr) (body : Frame → State → Answer) : Prop := ∀ f s, CoreMoves c s (body f s).state

@[simp] theorem State.core_answerFrame (f : Frame) (a : Answer) : (answerFrame f a).core = a.state.core := by
  have hreply (u : State) (h : u.core = a.state.core) :
      (if a.reported.isEmpty then u else u.endWaits a.reported).core = a.state.core := by
    split
    · exact h
    · rw [State.core_endWaits, h]
  unfold answerFrame
  cases a.reply with
  | none => exact hreply _ rfl
  | some p => exact hreply _ rfl

theorem OwnerMoves.fixedLength {c : Instr} {body : Frame → State → Answer} (h : OwnerMoves c body) (n : Nat) :
    OwnerMoves c (fixedLength n body) := by
  intro f s
  unfold Sys2Proof.Machine.fixedLength
  split
  · exact h f s
  · exact .of_core rfl

theorem OwnerMoves.of_takeRequest {c : Instr} {accepts : Byte → Bool} {body : Frame → State → Answer} {s t : State}
    (h : OwnerMoves c body) (ht : takeRequest accepts body s = .next t) : CoreMoves c s t := by
  rcases takeRequest_cases accepts body s with ⟨f, -, -, htaken⟩ | hidle
  · cases htaken.symm.trans ht
    obtain ⟨r, u, hr, hstep, hu⟩ := h f s.released
    exact ⟨r, u, hr, hstep, by rw [State.core_answerFrame, hu]⟩
  · cases hidle.symm.trans ht
    exact .of_core rfl

theorem OwnerMoves.of_fixedRequest {c : Instr} {kind : Byte} {n : Nat} {body : Frame → State → Answer} {s t : State}
    (h : OwnerMoves c body) (ht : request kind (Sys2Proof.Machine.fixedLength n body) s = .next t) : CoreMoves c s t :=
  (h.fixedLength n).of_takeRequest ht

/-- An owner that answers and changes nothing. -/
theorem ownerMoves_query (c : Instr) (st : Status) (p : Frame → State → List Byte) :
    OwnerMoves c fun f s => answer st (p f s) s := fun _ _ => .of_core rfl

theorem ownerMoves_panelSetup : OwnerMoves .panelSetup panelSetupBody := by
  intro f s
  unfold panelSetupBody
  split
  next h =>
    refine .of_step (.panelSetup _ _ _ h.1 h.2 ?_) rfl
    simp only [clamp, Config.planeStride]
    omega
  next => exact .of_core rfl

theorem ownerMoves_writeImage : OwnerMoves .writeImage writeImageBody := by
  intro f s
  unfold writeImageBody
  dsimp only
  repeat' split
  all_goals first
    | exact .of_core rfl
    | exact .of_step (.paint _ _ _ (.inl rfl)) rfl

theorem ownerMoves_fillImage : OwnerMoves .fillImage fillImageBody := by
  intro f s
  unfold fillImageBody
  dsimp only
  split
  · exact .of_core rfl
  · exact .of_step (.paint _ _ _ (.inr rfl)) rfl

theorem ownerMoves_read (c : Instr) (plane : PixelStore → Plane) : OwnerMoves c (readBody plane) := by
  intro f s
  unfold readBody
  dsimp only
  repeat' split
  all_goals exact .of_core rfl

theorem ownerMoves_loadWaveform : OwnerMoves .loadWaveform loadWaveformBody := by
  intro f s
  unfold loadWaveformBody
  dsimp only
  split
  · exact .of_core rfl
  · split
    · exact .of_core rfl
    · split
      · exact .of_core rfl
      next hheld =>
        split
        · exact .of_core rfl
        · exact .of_step (.load _ _ (by simpa using hheld)) rfl

theorem ownerMoves_commitWaveform : OwnerMoves .commitWaveform commitWaveformBody := by
  intro f s
  unfold commitWaveformBody
  dsimp only
  split
  · split
    · exact .of_core rfl
    · split
      · exact .of_core rfl
      next hheld =>
        split
        · exact .of_core rfl
        next hcrc =>
          split
          · exact .of_core rfl
          next himage =>
            split
            next hfree => exact .of_step (.install _ _ _ _ himage (by simpa using hheld) hfree) rfl
            next => exact .of_step (.hold _ ⟨himage, rfl, rfl⟩) rfl
  · exact .of_core rfl

theorem ownerMoves_eraseWaveform : OwnerMoves .eraseWaveform eraseWaveformBody := by
  intro f s
  unfold eraseWaveformBody
  split
  · split
    · exact .of_core rfl
    · split
      · exact .of_core rfl
      · split
        · exact .of_core rfl
        next hfree => exact .of_step (.erase _ _ (by simpa using hfree)) rfl
  · exact .of_core rfl

theorem ownerMoves_setBands : OwnerMoves .setBands setBandsBody := by
  intro f s
  unfold setBandsBody
  dsimp only
  split
  · exact .of_core rfl
  next hcount =>
    split
    · exact .of_core rfl
    next hchain =>
      refine .of_step (.sensor _ _ (.setBands _ ?_ (not_not.mp hchain) ?_)) rfl
      · rw [List.length_map, List.length_range]
        omega
      · intro b hb
        obtain ⟨i, -, rfl⟩ := List.mem_map.mp hb
        simp only [clampInt]
        omega

theorem ownerMoves_setSensor : OwnerMoves .setSensor setSensorBody := by
  intro f s
  unfold setSensorBody
  dsimp only
  split
  · refine .of_step (.sensor _ _ (.setSensor _ _ _ ?_ ?_)) rfl
    all_goals
      simp only [clamp]
      omega
  · exact .of_core rfl

theorem PixelStore.kept_of_clip {p : PixelStore} {q r : Rect} (h : p.clip q = some r) : p.kept r (hullOf r) := by
  unfold PixelStore.clip at h
  split at h
  · cases h
    refine ⟨?_, ?_, ?_, ?_, rfl⟩ <;> simp only <;> omega
  · cases h

theorem ownerMoves_startUpdate : OwnerMoves .startUpdate startUpdateBody := by
  intro f s
  unfold startUpdateBody
  dsimp only
  split
  · exact .of_core rfl
  · split
    · split
      · exact .of_core rfl
      next r hclip =>
        have hkept := PixelStore.kept_of_clip hclip
        split
        · exact .of_core rfl
        · split
          · exact .of_core rfl
          next hroom =>
            have hlt : s.sched.queue.length < Config.queueCapacity := Nat.lt_of_not_le hroom
            by_cases hoff : s.rail.state = .off
            · simp only [if_pos hoff]
              exact .of_step (.queuedRising { hull := hullOf r, .. } hkept hlt hoff) rfl
            · simp only [if_neg hoff]
              exact .of_step (.queued { hull := hullOf r, .. } hkept hlt) rfl
    · exact .of_core rfl

theorem ownerMoves_cancelUpdate : OwnerMoves .cancelUpdate cancelUpdateBody := fun _ _ =>
  .of_step (.cancel _) (State.core_settlePass_congr (State.core_leaveQueue _ _))

theorem ownerMoves_stopAll : OwnerMoves .stopAll stopAllBody := fun _ _ =>
  .of_step .stopAll (State.core_settlePass_congr (State.core_leaveQueue _ _))

theorem ownerMoves_queryTiles : OwnerMoves .queryTiles queryTilesBody := by
  intro f s
  unfold queryTilesBody
  dsimp only
  repeat' split
  all_goals exact .of_core rfl

theorem ownerMoves_markTiles : OwnerMoves .markTiles markTilesBody := by
  intro f s
  unfold markTilesBody
  dsimp only
  repeat' split
  all_goals first
    | exact .of_core rfl
    | exact .of_step (.mark _ _) rfl

theorem u8At_le (p : List Byte) (i : Nat) : u8At p i ≤ 255 := by
  have := (p.getD i 0#8).isLt
  unfold u8At
  omega

theorem ownerMoves_setPolicy : OwnerMoves .setPolicy setPolicyBody := by
  intro f s
  unfold setPolicyBody
  dsimp only
  split
  · exact .of_core rfl
  · exact .of_step (.setPolicy _ (u8At_le _ _)) rfl

theorem ownerMoves_railResume : OwnerMoves .railResume railResumeBody := by
  intro f s
  unfold railResumeBody
  split
  next hrail => exact .of_step (.resume _ hrail) rfl
  next => exact .of_core rfl

theorem ownerMoves_setNotices : OwnerMoves .setNotices setNoticesBody := by
  intro f s
  unfold setNoticesBody
  dsimp only
  split <;> exact .of_core rfl

theorem ownerMoves_waitUpdate : OwnerMoves .waitUpdate waitUpdateBody := by
  intro f s
  unfold waitUpdateBody
  dsimp only
  repeat' split
  all_goals exact .of_core rfl

/-! ### The bytes of the host port -/

theorem core_of_execTransactionPrefix {b : Byte} {s t : State} (h : execTransactionPrefix b s = .next t) :
    t.core = s.core := by
  unfold execTransactionPrefix at h
  split at h <;> cases h <;> rfl

theorem core_of_execBadSync {b : Byte} {s t : State} (h : execBadSync b s = .next t) : t.core = s.core := by
  unfold execBadSync at h
  split at h
  · split at h <;> cases h
    · rfl
    · simp
  · cases h
    rfl

theorem core_of_execHeaderTaken {b : Byte} {s t : State} (h : execHeaderTaken b s = .next t) : t.core = s.core := by
  unfold execHeaderTaken at h
  split at h <;> cases h
  · unfold State.takeHeader
    repeat' split
    all_goals first
      | rfl
      | simp
  · rfl

theorem core_of_execFrameComplete {b : Byte} {s t : State} (h : execFrameComplete b s = .next t) : t.core = s.core := by
  unfold execFrameComplete at h
  split at h
  · split at h <;> cases h <;> rfl
  · cases h
    rfl

theorem core_of_reframes {s t : State} (h : Reframes s (.next t)) : t.core = s.core := by
  rcases h with hidle | ⟨fr, -, hframed⟩
  · cases hidle
    rfl
  · cases hframed
    rfl

theorem core_of_execSelectRelease {s t : State} (h : execSelectRelease s = .next t) : t.core = s.core := by
  unfold execSelectRelease at h
  dsimp only at h
  split at h <;> cases h <;> simp

theorem core_of_execReplySent {s t : State} (h : execReplySent s = .next t) : t.core = s.core := by
  rcases execReplySent_cases s with hidle | ⟨_, _, _, -, -, -, hsent⟩
  · cases hidle.symm.trans h
    rfl
  · cases hsent.symm.trans h
    rfl

/-! ### Events inside the part -/

theorem core_of_execWaitReplyPlaced {s t : State} (h : execWaitReplyPlaced s = .next t) : t.core = s.core := by
  unfold execWaitReplyPlaced at h
  split at h
  · split at h <;> cases h <;> rfl
  · cases h
    rfl

theorem core_of_execWaitTimeCheckExpiry {s t : State} (h : execWaitTimeCheckExpiry s = .next t) : t.core = s.core := by
  unfold execWaitTimeCheckExpiry at h
  split at h <;> cases h
  · exact State.core_serveWaits _
  · rfl

theorem core_of_execAttnPulseEnd {s t : State} (h : execAttnPulseEnd s = .next t) : t.core = s.core := by
  unfold execAttnPulseEnd at h
  split at h <;> cases h <;> rfl

theorem coreMoves_sensorTimerExpiry {s t : State} (h : execSensorTimerExpiry s = .next t) :
    CoreMoves .sensorTimerExpiry s t := by
  unfold execSensorTimerExpiry at h
  split at h <;> cases h
  · exact .of_step (.sensor _ _ .timerExpiry) rfl
  · exact .of_core rfl

theorem coreMoves_gapEnd {s t : State} (h : execGapEnd s = .next t) : CoreMoves .gapEnd s t := by
  unfold execGapEnd at h
  split at h <;> cases h
  · exact .of_step (.sensor _ _ .gapEnd) rfl
  · exact .of_core rfl

/-- The notice latch takes the sample or stays (R52). -/
theorem State.compare_noticeLatch (t : Int) (inside : Bool) (s : State) :
    (s.compare t inside).temp.noticeLatch = s.temp.noticeLatch ∨ (s.compare t inside).temp.noticeLatch = some t := by
  unfold State.compare
  split
  case h_1 => exact .inl rfl
  case h_2 => split <;> simp
  case h_3 =>
    dsimp only
    split
    · exact .inl rfl
    · split <;> simp
  case h_4 => exact .inr rfl

/-- The Temperature Unit once a valid sample is taken, before the comparator looks at it (R48, R50). -/
def TemperatureUnit.sampled (u : TemperatureUnit) (t : Int) (inside : Bool) : TemperatureUnit :=
  { u with
    lastValid := some t, failures := 0, status := .valid, fresh := true,
    band := if inside then u.band else directBand u.boundaries t,
    bandLatch := if inside then u.bandLatch else some t }

theorem State.validSample_eq (t : Int) (s : State) : s.validSample t =
    ({ s with temp := s.temp.sampled t (insideBand s.temp.boundaries s.temp.band s.temp.settings.hysteresis t) } :
      State).compare t (insideBand s.temp.boundaries s.temp.band s.temp.settings.hysteresis t) := by
  unfold State.validSample
  dsimp only
  cases insideBand s.temp.boundaries s.temp.band s.temp.settings.hysteresis t <;> rfl

theorem State.core_compare (t : Int) (inside : Bool) (s : State) : ∃ mode reference latch,
    (latch = s.temp.noticeLatch ∨ latch = some t) ∧ (s.compare t inside).core = ({ s with
      temp := { s.temp with comparator := mode, reference := reference, noticeLatch := latch } } : State).core := by
  obtain ⟨mode, reference, latch, htemp⟩ := s.compare_temp t inside
  have hlatch := s.compare_noticeLatch t inside
  rw [htemp] at hlatch
  exact ⟨mode, reference, latch, hlatch, by simp [State.core_eq_iff, htemp]⟩

theorem coreMoves_sensorCycleEnd {w : SensorWord} {s t : State} (h : execSensorCycleEnd w s = .next t) :
    CoreMoves (.sensorCycleEnd w) s t := by
  unfold execSensorCycleEnd at h
  split at h
  case isFalse =>
    cases h
    exact .of_core rfl
  case isTrue hc =>
    dsimp only at h
    split at h <;> cases h
    case h_1 hw =>
      unfold State.failedSample
      dsimp only
      split <;> exact .of_step (.sensor _ _ (.failed w _ _ (Nat.min_le_right _ _))) rfl
    case h_2 v hw =>
      rw [State.validSample_eq]
      generalize insideBand s.temp.boundaries s.temp.band s.temp.settings.hysteresis v = inside
      obtain ⟨mode, ref, latch, hlatch, hcore⟩ := State.core_compare v inside
        { s with temp := { s.temp with cycle := .gap s.temp.settings.gap }.sampled v inside }
      refine .of_step (.sensor _ _ (.valid w v _ _ latch mode ref hw ?_ ?_ hlatch)) hcore
      · cases inside
        · exact .inr rfl
        · exact .inl rfl
      · cases inside
        · exact .inr rfl
        · exact .inl rfl

theorem coreMoves_timebaseTick {s t : State} (h : execTimebaseTick s = .next t) : CoreMoves .timebaseTick s t := by
  rcases execTimebaseTick_cases s with hplain | ⟨⟨n, hrail⟩, -, hon⟩
  · cases hplain.symm.trans h
    exact .of_step .tick rfl
  · cases hon.symm.trans h
    exact .of_step (.tickOn _ hrail) rfl

theorem coreMoves_pwrGoodActive {s t : State} (h : execPwrGoodActive s = .next t) : CoreMoves .pwrGoodActive s t := by
  unfold execPwrGoodActive at h
  split at h <;> cases h
  next hrail =>
    split
    · exact .of_core rfl
    · exact .of_step (.pwrGoodOn _ hrail) rfl
  next => exact .of_step (.pwrGood _ true) rfl

theorem coreMoves_rampTimerExpiry {s t : State} (h : execRampTimerExpiry s = .next t) : CoreMoves .rampTimerExpiry s t := by
  unfold execRampTimerExpiry at h
  split at h <;> cases h
  next hrail => exact .of_step (.rampFault hrail) rfl
  next => exact .of_core rfl

theorem coreMoves_pwrGoodLoss {s t : State} (h : execPwrGoodLoss s = .next t) : CoreMoves .pwrGoodLoss s t := by
  unfold execPwrGoodLoss at h
  dsimp only at h
  split at h <;> cases h
  next hrail => exact .of_step (.lost hrail) rfl
  next => exact .of_step (.pwrGood _ false) rfl

theorem coreMoves_dischargeTimerExpiry {s t : State} (h : execDischargeTimerExpiry s = .next t) :
    CoreMoves .dischargeTimerExpiry s t := by
  unfold execDischargeTimerExpiry at h
  split at h <;> cases h
  next hrail =>
    dsimp only
    split
    · exact .of_step (.discharged hrail) rfl
    · exact .of_step (.dischargedRising hrail) rfl
  next => exact .of_core rfl

theorem coreMoves_frameStart {s t : State} (h : execFrameStart s = .next t) : CoreMoves .frameStart s t := by
  unfold execFrameStart at h
  split at h <;> cases h
  next hon => exact .of_step (.frameStart hon.1 hon.2) rfl
  next => exact .of_core rfl

theorem coreMoves_frameEnd {s t : State} (h : execFrameEnd s = .next t) : CoreMoves .frameEnd s t := by
  unfold execFrameEnd at h
  split at h <;> cases h
  next hon => exact .of_step (.frameEnd hon.1 hon.2) (by simp [State.frameAdvanced])
  next => exact .of_core rfl

theorem State.core_refuseEntry (s : State) (n : Nat) (e : PendingEntry) (o : UpdateOutcome) (eff : Mode) (esc : Bool) :
    (s.refuseEntry n e o eff esc).core = ({ s with sched.queue := s.sched.queue.eraseIdx n } : State).core := by
  unfold State.refuseEntry
  dsimp only
  rw [State.core_endWaits, State.core_leaveQueue]
  simp [State.core_eq_iff]

theorem State.core_enterEntry (s : State) (n : Nat) (i : Fin 16) (e : PendingEntry) (eff : Mode) (esc : Bool) :
    (s.enterEntry n i e eff esc).core =
      ({ s.fillSlot i e eff esc s.temp.band with sched.queue := s.sched.queue.eraseIdx n } : State).core := by
  rw [State.enterEntry, State.core_endWaits, State.core_leaveQueue]

theorem coreMoves_entryExamination {s t : State} (h : execEntryExamination s = .next t) :
    CoreMoves .entryExamination s t := by
  unfold execEntryExamination at h
  split at h
  case isFalse =>
    cases h
    exact .of_core rfl
  case isTrue hrail =>
    split at h
    case h_2 =>
      cases h
      exact .of_core rfl
    case h_1 n hphase =>
      split at h <;> cases h
      case h_2 => exact .of_step (.passed n hrail hphase) rfl
      case h_1 e hentry =>
        rcases s.examine_cases n e with hx | ⟨hgo, ⟨o, eff, esc, -, hx⟩ | ⟨i, eff, esc, hfree, hplan, -, hx⟩⟩
        · exact .of_step (.waits n hrail hphase) (by rw [hx])
        · rw [hx]
          exact .of_step (.refused n hrail hphase) (State.core_settlePass_congr (s.core_refuseEntry n e o eff esc))
        · rw [hx]
          exact .of_step (.admitted n i e eff esc hrail hphase hentry hgo hfree hplan)
            (State.core_settlePass_congr (s.core_enterEntry n i e eff esc))

/-! ### Every command -/

/-- Said once for every command: what it may do to the blocks of the view. -/
theorem exec_coreMoves (c : Instr) {s t : State} (ht : exec c s = .next t) : CoreMoves c s t := by
  cases c with
  | powerOnReset =>
    cases ht
    exact .of_step .powerOnReset rfl
  | transactionPrefix b => exact .of_core (core_of_execTransactionPrefix ht)
  | badSync b => exact .of_core (core_of_execBadSync ht)
  | headerTaken b => exact .of_core (core_of_execHeaderTaken ht)
  | frameComplete b => exact .of_core (core_of_execFrameComplete ht)
  | skipEnd b => exact .of_core (core_of_reframes (ht ▸ reframes_skipEnd b s))
  | frameByteReceived b => exact .of_core (core_of_reframes (ht ▸ reframes_frameByteReceived b s))
  | selectRelease => exact .of_core (core_of_execSelectRelease ht)
  | replySent => exact .of_core (core_of_execReplySent ht)
  | waitReplyPlaced => exact .of_core (core_of_execWaitReplyPlaced ht)
  | unknownKind => exact (ownerMoves_query _ .unknownKind fun _ _ => []).of_takeRequest ht
  | status => exact (ownerMoves_query _ .ok fun _ s => s.statusRecord).of_fixedRequest ht
  | resetPart => exact OwnerMoves.of_fixedRequest (body := resetPartBody) (fun _ _ => .of_step .resetPart rfl) ht
  | panelSetup => exact ownerMoves_panelSetup.of_fixedRequest ht
  | writeImage => exact ownerMoves_writeImage.of_takeRequest ht
  | fillImage => exact ownerMoves_fillImage.of_fixedRequest ht
  | readImage => exact (ownerMoves_read _ _).of_fixedRequest ht
  | readPanel => exact (ownerMoves_read _ _).of_fixedRequest ht
  | loadWaveform => exact ownerMoves_loadWaveform.of_takeRequest ht
  | commitWaveform => exact ownerMoves_commitWaveform.of_fixedRequest ht
  | eraseWaveform => exact ownerMoves_eraseWaveform.of_fixedRequest ht
  | listWaveforms => exact OwnerMoves.of_fixedRequest (body := listWaveformsBody) (fun _ _ => .of_core rfl) ht
  | setBands => exact ownerMoves_setBands.of_fixedRequest ht
  | setSensor => exact ownerMoves_setSensor.of_fixedRequest ht
  | sampleNow =>
    exact OwnerMoves.of_fixedRequest (body := sampleNowBody) (fun _ _ => .of_step (.sensor _ _ .sampleNow) rfl) ht
  | sensorTimerExpiry => exact coreMoves_sensorTimerExpiry ht
  | sensorCycleEnd w => exact coreMoves_sensorCycleEnd ht
  | gapEnd => exact coreMoves_gapEnd ht
  | timebaseTick => exact coreMoves_timebaseTick ht
  | startUpdate => exact ownerMoves_startUpdate.of_fixedRequest ht
  | cancelUpdate => exact ownerMoves_cancelUpdate.of_fixedRequest ht
  | queryQueue => exact OwnerMoves.of_fixedRequest (body := queryQueueBody) (fun _ _ => .of_core rfl) ht
  | queryTiles => exact ownerMoves_queryTiles.of_fixedRequest ht
  | markTiles => exact ownerMoves_markTiles.of_fixedRequest ht
  | setPolicy => exact ownerMoves_setPolicy.of_fixedRequest ht
  | stopAll => exact ownerMoves_stopAll.of_fixedRequest ht
  | querySlots => exact OwnerMoves.of_fixedRequest (body := querySlotsBody) (fun _ _ => .of_core rfl) ht
  | setRails =>
    exact OwnerMoves.of_fixedRequest (body := setRailsBody) (fun _ _ => .of_step (.setRails _ _ _) rfl) ht
  | railResume => exact ownerMoves_railResume.of_fixedRequest ht
  | setNotices => exact ownerMoves_setNotices.of_fixedRequest ht
  | fetchNotices => exact OwnerMoves.of_fixedRequest (body := fetchNoticesBody) (fun _ _ => .of_core rfl) ht
  | waitUpdate => exact ownerMoves_waitUpdate.of_fixedRequest ht
  | waitTimeCheckExpiry => exact .of_core (core_of_execWaitTimeCheckExpiry ht)
  | attnPulseEnd => exact .of_core (core_of_execAttnPulseEnd ht)
  | pwrGoodActive => exact coreMoves_pwrGoodActive ht
  | rampTimerExpiry => exact coreMoves_rampTimerExpiry ht
  | pwrGoodLoss => exact coreMoves_pwrGoodLoss ht
  | dischargeTimerExpiry => exact coreMoves_dischargeTimerExpiry ht
  | frameStart => exact coreMoves_frameStart ht
  | entryExamination => exact coreMoves_entryExamination ht
  | frameEnd => exact coreMoves_frameEnd ht

/-- A relation between states that looks at the blocks of the view alone and holds of every step holds of every command. -/
theorem exec_relates (R : Instr → State → State → Prop) (hcore : ∀ c s t, R c s.core t.core ↔ R c s t)
    (hstep : ∀ c s u, CoreStep s c u → R c s u) {c : Instr} {s t : State} (ht : exec c s = .next t) : R c s t := by
  obtain ⟨r, u, hr, hmove, hu⟩ := exec_coreMoves c ht
  rw [← hcore, ← hr, hu, hcore]
  exact hstep c r u hmove

/-- A property of the blocks of the view that every step keeps is kept by every command. -/
theorem exec_keeps (P : State → Prop) (hcore : ∀ s, P s.core ↔ P s) (hstep : ∀ c s u, CoreStep s c u → P s → P u)
    {c : Instr} {s t : State} (hs : P s) (ht : exec c s = .next t) : P t :=
  exec_relates (fun _ s t => P s → P t) (fun _ s t => by rw [hcore, hcore]) hstep ht hs

/-! ### Folds over the slots -/

/-- A property that every element of a run of changes keeps holds after the run. -/
theorem foldl_keeps {α : Type} (P : State → Prop) (f : State → α → State) (l : List α)
    (h : ∀ s, ∀ a ∈ l, P s → P (f s a)) {s : State} (hs : P s) : P (l.foldl f s) :=
  List.foldlRecOn l f hs fun s hs a ha => h s a ha hs

end Sys2Proof.Machine
end

section
/-! PROOF. Chapter 6: what every command may do to the slot table (R95, R96), and who may change the planes and the rails. -/

namespace Sys2Proof.Machine

/-! ### The slot table -/

/-- Every active slot of `g` was active in `f`, with its record kept but for its state and its frame index, and STOPPING if
it was STOPPING. -/
def SlotsWithin (f g : FrameEngine) : Prop :=
  ∀ (i : Fin 16) (v : Slot), g.slots[i] = some v → ∃ u, f.slots[i] = some u ∧
    v = { u with phase := v.phase, index := v.index } ∧ (u.phase = .stopping → v.phase = .stopping)

theorem SlotsWithin.of_eq {f g : FrameEngine} (h : g.slots = f.slots) : SlotsWithin f g :=
  fun _ v hv => ⟨v, h ▸ hv, rfl, id⟩

theorem SlotsWithin.refl (f : FrameEngine) : SlotsWithin f f := .of_eq rfl

theorem SlotsWithin.of_none {f g : FrameEngine} (h : ∀ i : Fin 16, g.slots[i] = none) : SlotsWithin f g := by
  intro i v hv
  rw [h i] at hv
  cases hv

theorem SlotsWithin.trans {f g k : FrameEngine} (h : SlotsWithin f g) (h' : SlotsWithin g k) : SlotsWithin f k := by
  intro i w hw
  obtain ⟨v, hv, hw', hstop'⟩ := h' i w hw
  obtain ⟨u, hu, hv', hstop⟩ := h i v hv
  exact ⟨u, hu, by rw [hw', hv'], fun hp => hstop' (hstop hp)⟩

theorem slotsWithin_finishSlot (s : State) (i : Fin 16) (sl : Slot) (o : UpdateOutcome) (n : Nat) :
    SlotsWithin s.frame (s.finishSlot i sl o n).frame := by
  intro j v hv
  rw [State.finishSlot_frame] at hv
  have hset : (s.frame.setSlot i none).slots[j] = some v := hv
  rw [FrameEngine.slots_setSlot] at hset
  split at hset
  · cases hset
  · exact ⟨v, hset, rfl, id⟩

theorem slotsWithin_advanceSlot (s : State) (i : Fin 16) : SlotsWithin s.frame (s.advanceSlot i).frame := by
  rcases s.advanceSlot_cases i with ⟨-, h⟩ | ⟨sl, hsl, ⟨-, h⟩ | ⟨-, -, h⟩ | ⟨-, -, h⟩⟩
  · rw [h]
    exact .refl _
  · rw [h]
    exact slotsWithin_finishSlot _ _ _ _ _
  · rw [h]
    exact slotsWithin_finishSlot _ _ _ _ _
  · rw [h]
    intro j v hv
    have hset : (s.frame.setSlot i (some { sl with index := sl.index + 1 })).slots[j] = some v := hv
    rw [FrameEngine.slots_setSlot] at hset
    split at hset
    next hij =>
      subst hij
      cases hset
      exact ⟨sl, hsl, rfl, id⟩
    next => exact ⟨v, hset, rfl, id⟩

/-- What an abort does: nothing where the slot is FREE, its end otherwise. -/
theorem State.abortSlot_cases (s : State) (i : Fin 16) : (s.frame.slots[i] = none ∧ s.abortSlot i = s) ∨
    ∃ sl, s.frame.slots[i] = some sl ∧ s.abortSlot i = s.finishSlot i sl .aborted sl.index := by
  cases h : s.frame.slots[i] with
  | none => exact .inl ⟨rfl, by simp only [State.abortSlot, h]⟩
  | some sl => exact .inr ⟨sl, rfl, by simp only [State.abortSlot, h]⟩

theorem slotsWithin_abortSlot (s : State) (i : Fin 16) : SlotsWithin s.frame (s.abortSlot i).frame := by
  rcases s.abortSlot_cases i with ⟨-, h⟩ | ⟨sl, -, h⟩
  · rw [h]
    exact .refl _
  · rw [h]
    exact slotsWithin_finishSlot _ _ _ _ _

theorem slotsWithin_foldl {α : Type} {f : State → α → State} (hf : ∀ s a, SlotsWithin s.frame (f s a).frame) (l : List α)
    (s : State) : SlotsWithin s.frame (l.foldl f s).frame :=
  foldl_keeps (fun t => SlotsWithin s.frame t.frame) f l (fun t a _ h => h.trans (hf t a)) (.refl _)

theorem slotsWithin_frameAdvanced (s : State) : SlotsWithin s.frame s.frameAdvanced.frame :=
  slotsWithin_foldl slotsWithin_advanceSlot s.frame.admissions _

/-- The state once a loss of the supply has aborted the slots and stopped frame timing (R110). -/
def State.aborted (s : State) : State :=
  { s.frame.admissions.foldl State.abortSlot { s with rail.state := .faulted .loss } with
    frame.phase := .stopped, frame.driveActive := false }

/-- What a loss of the supply does behind the notices: aborts, recovery entries, the held commit (R35, R110, R122). -/
theorem State.core_supplyLoss (s : State) : s.supplyLoss.core =
    ((s.aborted.recover (freedSlots s s.aborted)).installHeld (freedSlots s s.aborted)).core := by
  unfold State.supplyLoss
  dsimp only
  rw [State.core_endWaits, State.core_idleNotice, State.core_raise]
  rfl

theorem State.supplyLoss_frame (s : State) : s.supplyLoss.frame = s.aborted.frame := by
  obtain ⟨-, -, -, -, -, hframe, -⟩ := (State.core_eq_iff _ _).1 s.core_supplyLoss
  rw [hframe, State.installHeld_frame, State.recover_frame]

theorem State.supplyLoss_pixel (s : State) : s.supplyLoss.pixel = s.aborted.pixel := by
  obtain ⟨hpixel, -⟩ := (State.core_eq_iff _ _).1 s.core_supplyLoss
  rw [hpixel, State.installHeld_pixel, State.recover_pixel]

theorem State.supplyLoss_ghost (s : State) : s.supplyLoss.ghost = s.aborted.ghost := by
  obtain ⟨-, -, -, -, hghost, -⟩ := (State.core_eq_iff _ _).1 s.core_supplyLoss
  rw [hghost, State.installHeld_ghost, State.recover_ghost]

theorem State.supplyLoss_sched (s : State) : s.supplyLoss.sched = (s.aborted.recover (freedSlots s s.aborted)).sched := by
  obtain ⟨-, -, -, hsched, -⟩ := (State.core_eq_iff _ _).1 s.core_supplyLoss
  rw [hsched, State.installHeld_sched]

theorem State.supplyLoss_wave (s : State) : s.supplyLoss.wave =
    ((s.aborted.recover (freedSlots s s.aborted)).installHeld (freedSlots s s.aborted)).wave := by
  obtain ⟨-, hwave, -⟩ := (State.core_eq_iff _ _).1 s.core_supplyLoss
  exact hwave

@[simp] theorem State.aborted_wave (s : State) : s.aborted.wave = s.wave := by simp [State.aborted]
@[simp] theorem State.aborted_sched (s : State) : s.aborted.sched = s.sched := by simp [State.aborted]

theorem slotsWithin_supplyLoss (s : State) : SlotsWithin s.frame s.supplyLoss.frame := by
  rw [State.supplyLoss_frame]
  exact slotsWithin_foldl slotsWithin_abortSlot s.frame.admissions { s with rail.state := .faulted .loss }

/-- A slot after a run of silent ends. -/
theorem State.slots_foldl_freeSlotSilently (qs : List (Fin 16 × Slot)) (s : State) (i : Fin 16) :
    (qs.foldl State.freeSlotSilently s).frame.slots[i] = if ∃ q ∈ qs, q.1 = i then none else s.frame.slots[i] := by
  induction qs generalizing s with
  | nil => simp
  | cons q qs ih =>
    rw [List.foldl_cons, ih]
    have hone : (s.freeSlotSilently q).frame.slots[i] = if q.1 = i then none else s.frame.slots[i] :=
      FrameEngine.slots_setSlot _ _ _ _
    rw [hone]
    simp only [List.exists_mem_cons_iff]
    by_cases hq : q.1 = i <;> simp only [hq, true_or, false_or, if_true, if_false, ite_self]

/-- A soft reset leaves every slot FREE (R114). -/
theorem State.softReset_slots (s : State) (i : Fin 16) : s.softReset.frame.slots[i] = none := by
  change (s.frame.active.foldl State.freeSlotSilently s).frame.slots[i] = none
  rw [State.slots_foldl_freeSlotSilently]
  split
  · rfl
  next hnot =>
    cases h : s.frame.slots[i] with
    | none => rfl
    | some sl => exact absurd ⟨(i, sl), (FrameEngine.mem_active _ _ _).2 h, rfl⟩ hnot

theorem FrameEngine.nodup_active (f : FrameEngine) : (f.active.map Prod.fst).Nodup := by
  have hslots : f.active.map Prod.fst = (List.finRange 16).filter fun i => f.slots[i].isSome := by
    unfold FrameEngine.active
    rw [List.map_filterMap, ← List.filterMap_eq_filter]
    congr 1
    funext i
    rw [Option.guard_def]
    change _ = if f.slots[i].isSome = true then some i else none
    cases f.slots[i] <;> rfl
  rw [hslots]
  exact (List.nodup_finRange 16).filter _

/-- A property that the silent end of an active slot keeps holds once all slots of a list have ended. -/
theorem State.foldl_freeSlotSilently_keeps (P : State → Prop)
    (hP : ∀ (t : State) (i : Fin 16) (sl : Slot), t.frame.slots[i] = some sl → P t → P (t.freeSlotSilently (i, sl))) :
    ∀ (qs : List (Fin 16 × Slot)) (t : State), (qs.map Prod.fst).Nodup → (∀ q ∈ qs, t.frame.slots[q.1] = some q.2) → P t →
      P (qs.foldl State.freeSlotSilently t)
  | [], _, _, _, ht => ht
  | (i, sl) :: qs, t, hnodup, hqs, ht => by
    obtain ⟨hnot, hnodup⟩ := List.nodup_cons.1 hnodup
    refine State.foldl_freeSlotSilently_keeps P hP qs _ hnodup (fun q hq => ?_) (hP t i sl (hqs (i, sl) List.mem_cons_self) ht)
    have hone : (t.freeSlotSilently (i, sl)).frame.slots[q.1] = if i = q.1 then none else t.frame.slots[q.1] :=
      FrameEngine.slots_setSlot _ _ _ _
    rw [hone, if_neg (fun he => hnot (List.mem_map.2 ⟨q, hq, he.symm⟩))]
    exact hqs q (List.mem_cons_of_mem _ hq)

/-- A property that the silent end of an active slot keeps outlasts the end of all slots in a soft reset. -/
theorem State.freeAll_keeps (P : State → Prop)
    (hP : ∀ (t : State) (i : Fin 16) (sl : Slot), t.frame.slots[i] = some sl → P t → P (t.freeSlotSilently (i, sl)))
    {s : State} (hs : P s) : P (s.frame.active.foldl State.freeSlotSilently s) :=
  State.foldl_freeSlotSilently_keeps P hP _ s s.frame.nodup_active
    (fun q hq => (FrameEngine.mem_active _ q.1 q.2).1 hq) hs

theorem State.reset_slots (i : Fin 16) : State.reset.frame.slots[i] = none := by
  simp [State.reset, FrameEngine.reset]

/-- Every step but an admission leaves the active slots among those of before. -/
theorem CoreStep.slots {s u : State} {c : Instr} (h : CoreStep s c u) : SlotsWithin s.frame u.frame ∨
    ∃ i, ∃ e ∈ s.sched.queue, ∃ eff esc, c = .entryExamination ∧ s.rail.state = .on ∧ s.frame.freeSlot = some i ∧
      u.frame.slots = (s.frame.setSlot i (some (s.admittedSlot e eff esc s.temp.band))).slots := by
  cases h with
  | powerOnReset => exact .inl (.of_none State.reset_slots)
  | resetPart => exact .inl (.of_none s.softReset_slots)
  | stopAll =>
    refine .inl fun i v hv => ?_
    rw [State.settlePass_slots, Fin.getElem_fin, Vector.getElem_map] at hv
    obtain ⟨u, hu, rfl⟩ := Option.map_eq_some_iff.1 hv
    exact ⟨u, hu, rfl, fun _ => rfl⟩
  | lost => exact .inl (slotsWithin_supplyLoss { s with rail.pwrGood := false })
  | frameEnd =>
    refine .inl ?_
    rw [State.installHeld_frame]
    exact slotsWithin_frameAdvanced s
  | admitted n i e eff esc hrail hphase hentry hgo hfree hplan =>
    exact .inr ⟨i, e, List.mem_of_getElem? hentry, eff, esc, rfl, hrail, hfree, State.settlePass_slots _⟩
  | cancel | frameStart | passed | waits | refused => exact .inl (.of_eq (State.settlePass_slots _))
  | _ => exact .inl (.refl _)

/-- Settles O52: an admission fills a FREE slot, and every other step keeps the slots within those of before. -/
theorem slotRecordKept : Obligations.SlotRecordKept := by
  intro c s t ht
  refine exec_relates (fun c s t => ∀ (i : Fin 16) (v : Slot), t.frame.slots[i] = some v →
    (∀ u, s.frame.slots[i] = some u →
      v = { u with phase := v.phase, index := v.index } ∧ (u.phase = .stopping → v.phase = .stopping)) ∧
    (s.frame.slots[i] = none → c = .entryExamination ∧ s.rail.state = .on ∧ v.phase = .driving ∧ v.index = 0))
    (fun _ _ _ => Iff.rfl) (fun c s u hstep i v hv => ?_) ht
  rcases hstep.slots with hwithin | ⟨k, e, -, eff, esc, rfl, hrail, hfree, hslots⟩
  · obtain ⟨u, hu, hkept⟩ := hwithin i v hv
    refine ⟨fun u' hu' => ?_, fun hnone => ?_⟩
    · cases hu.symm.trans hu'
      exact hkept
    · cases hu.symm.trans hnone
  · obtain ⟨hnone, -⟩ := (FrameEngine.freeSlot_eq_some _ _).1 hfree
    rw [hslots, FrameEngine.slots_setSlot] at hv
    split at hv
    next hik =>
      subst hik
      cases hv
      exact ⟨fun u hu => (by cases hnone.symm.trans hu), fun _ => ⟨rfl, hrail, rfl, rfl⟩⟩
    next =>
      refine ⟨fun u hu => ?_, fun hn => ?_⟩
      · cases hv.symm.trans hu
        exact ⟨rfl, id⟩
      · cases hv.symm.trans hn

/-! ### The queue of commands -/

theorem CoreStep.pending {s u : State} {c : Instr} (h : CoreStep s c u) : u.pending = s.pending := by
  cases h <;> simp [State.frameAdvanced]

theorem takeRequest_next (accepts : Byte → Bool) (body : Frame → State → Answer) (s : State) :
    ∃ t, takeRequest accepts body s = .next t := by
  rcases takeRequest_cases accepts body s with ⟨f, -, -, h⟩ | h
  · exact ⟨_, h⟩
  · exact ⟨s, h⟩

/-- The bytes of the host port answer a next state whatever the framing state is. -/
theorem exec_byte_next (b : Byte) (s : State) :
    ∀ c ∈ [Instr.transactionPrefix b, .badSync b, .headerTaken b, .frameComplete b, .skipEnd b, .frameByteReceived b],
      ∃ t, exec c s = .next t := by
  simp only [List.forall_mem_cons, exec]
  refine ⟨?_, ?_, ?_, ?_, ?_, ?_, by simp⟩
  · unfold execTransactionPrefix
    split <;> exact ⟨_, rfl⟩
  · unfold execBadSync
    repeat' split
    all_goals exact ⟨_, rfl⟩
  · unfold execHeaderTaken
    split <;> exact ⟨_, rfl⟩
  · unfold execFrameComplete
    repeat' split
    all_goals exact ⟨_, rfl⟩
  · unfold execSkipEnd
    split <;> exact ⟨_, rfl⟩
  · unfold execFrameByteReceived
    repeat' split
    all_goals exact ⟨_, rfl⟩

/-- The events of the Message Link and of the Notice Unit answer a next state. -/
theorem exec_link_next (s : State) :
    ∀ c ∈ [Instr.selectRelease, .replySent, .waitReplyPlaced, .waitTimeCheckExpiry, .attnPulseEnd],
      ∃ t, exec c s = .next t := by
  simp only [List.forall_mem_cons, exec]
  refine ⟨?_, ?_, ?_, ?_, ?_, by simp⟩
  · unfold execSelectRelease
    dsimp only
    split <;> exact ⟨_, rfl⟩
  · rcases execReplySent_cases s with h | ⟨_, _, _, -, -, -, h⟩ <;> exact ⟨_, h⟩
  · unfold execWaitReplyPlaced
    repeat' split
    all_goals exact ⟨_, rfl⟩
  · unfold execWaitTimeCheckExpiry
    split <;> exact ⟨_, rfl⟩
  · unfold execAttnPulseEnd
    split <;> exact ⟨_, rfl⟩

/-- The events of the Temperature Unit, the rails and the Frame Engine answer a next state. -/
theorem exec_event_next (s : State) (w : SensorWord) :
    ∀ c ∈ [Instr.sensorTimerExpiry, .sensorCycleEnd w, .gapEnd, .timebaseTick, .pwrGoodActive, .rampTimerExpiry,
        .pwrGoodLoss, .dischargeTimerExpiry, .frameStart, .entryExamination, .frameEnd],
      ∃ t, exec c s = .next t := by
  simp only [List.forall_mem_cons, exec]
  refine ⟨?_, ?_, ?_, ⟨_, rfl⟩, ?_, ?_, ?_, ?_, ?_, ?_, ?_, by simp⟩
  · unfold execSensorTimerExpiry
    split <;> exact ⟨_, rfl⟩
  · unfold execSensorCycleEnd
    dsimp only
    repeat' split
    all_goals exact ⟨_, rfl⟩
  · unfold execGapEnd
    split <;> exact ⟨_, rfl⟩
  · unfold execPwrGoodActive
    dsimp only
    split <;> exact ⟨_, rfl⟩
  · unfold execRampTimerExpiry
    split <;> exact ⟨_, rfl⟩
  · unfold execPwrGoodLoss
    dsimp only
    split <;> exact ⟨_, rfl⟩
  · unfold execDischargeTimerExpiry
    split <;> exact ⟨_, rfl⟩
  · unfold execFrameStart
    split <;> exact ⟨_, rfl⟩
  · unfold execEntryExamination
    repeat' split
    all_goals exact ⟨_, rfl⟩
  · unfold execFrameEnd
    split <;> exact ⟨_, rfl⟩

theorem exec_next (c : Instr) (s : State) : ∃ t, exec c s = .next t := by
  cases c with
  | powerOnReset => exact ⟨_, rfl⟩
  | transactionPrefix b | badSync b | headerTaken b | frameComplete b | skipEnd b | frameByteReceived b =>
    exact exec_byte_next b s _ (by simp)
  | selectRelease | replySent | waitReplyPlaced | waitTimeCheckExpiry | attnPulseEnd => exact exec_link_next s _ (by simp)
  | sensorCycleEnd w => exact exec_event_next s w _ (by simp)
  | sensorTimerExpiry | gapEnd | timebaseTick | pwrGoodActive | rampTimerExpiry | pwrGoodLoss | dischargeTimerExpiry
  | frameStart | entryExamination | frameEnd => exact exec_event_next s 0#16 _ (by simp)
  | _ => exact takeRequest_next _ _ s

/-- Settles O2: every meaning ends in a next state on each of its paths, and no step of the blocks touches the queue. -/
theorem everyCommandAnswersNext : Obligations.EveryCommandAnswersNext := by
  intro c s
  obtain ⟨t, ht⟩ := exec_next c s
  exact ⟨t, ht, exec_relates (fun _ s t => t.pending = s.pending) (fun _ _ _ => Iff.rfl) (fun _ _ _ => CoreStep.pending) ht⟩

/-! ### The writers of the planes -/

@[simp] theorem State.finishSlot_image (s : State) (i : Fin 16) (sl : Slot) (o : UpdateOutcome) (n : Nat) :
    (s.finishSlot i sl o n).pixel.image = s.pixel.image := by
  rw [State.finishSlot_pixel]
  split <;> rfl

/-- The image plane and the believed levels outlast the abort of a slot (R17). -/
theorem State.abortSlot_planes (s : State) (i : Fin 16) :
    (s.abortSlot i).pixel.image = s.pixel.image ∧ (s.abortSlot i).pixel.believed = s.pixel.believed := by
  rcases s.abortSlot_cases i with ⟨-, h⟩ | ⟨sl, -, h⟩
  · rw [h]
    exact ⟨rfl, rfl⟩
  · rw [h, State.finishSlot_pixel]
    exact ⟨rfl, rfl⟩

theorem State.advanceSlot_image (s : State) (i : Fin 16) : (s.advanceSlot i).pixel.image = s.pixel.image := by
  rcases s.advanceSlot_cases i with ⟨-, h⟩ | ⟨sl, -, ⟨-, h⟩ | ⟨-, -, h⟩ | ⟨-, -, h⟩⟩ <;> simp [h]

@[simp] theorem State.frameAdvanced_image (s : State) : s.frameAdvanced.pixel.image = s.pixel.image :=
  foldl_keeps (fun t => t.pixel.image = s.pixel.image) State.advanceSlot _ (fun t i _ h => (t.advanceSlot_image i).trans h) rfl

theorem State.supplyLoss_planes (s : State) :
    s.supplyLoss.pixel.image = s.pixel.image ∧ s.supplyLoss.pixel.believed = s.pixel.believed := by
  rw [State.supplyLoss_pixel]
  refine foldl_keeps (fun t => t.pixel.image = s.pixel.image ∧ t.pixel.believed = s.pixel.believed) State.abortSlot _
    (fun t i _ h => ?_) ⟨rfl, rfl⟩
  obtain ⟨himage, hbelieved⟩ := t.abortSlot_planes i
  exact ⟨himage.trans h.1, hbelieved.trans h.2⟩

/-- A soft reset writes of the Pixel Store the next levels alone (R18). -/
theorem State.softReset_pixel (s : State) : ∃ next, s.softReset.pixel = { s.pixel with next := next } := by
  change ∃ next, (s.frame.active.foldl State.freeSlotSilently s).pixel = { s.pixel with next := next }
  refine foldl_keeps (fun t => ∃ next, t.pixel = { s.pixel with next := next }) State.freeSlotSilently _
    (fun t q _ h => ?_) ⟨_, rfl⟩
  obtain ⟨next, h⟩ := h
  have hone : (t.freeSlotSilently q).pixel =
      { t.pixel with next := t.pixel.next.paint (t.pixel.driveSet q.2) t.pixel.believed.level } := rfl
  rw [hone, h]
  exact ⟨_, rfl⟩

theorem CoreStep.planes {s u : State} {c : Instr} (h : CoreStep s c u) :
    (u.pixel.image ≠ s.pixel.image → c = .writeImage ∨ c = .fillImage ∨ c = .panelSetup ∨ c = .powerOnReset) ∧
    (u.pixel.believed ≠ s.pixel.believed → c = .frameEnd ∨ c = .panelSetup ∨ c = .powerOnReset) := by
  cases h with
  | powerOnReset | panelSetup => exact ⟨fun _ => by simp, fun _ => by simp⟩
  | paint r f p hc => exact ⟨fun _ => hc.imp_right .inl, fun h => absurd rfl h⟩
  | resetPart =>
    obtain ⟨next, hpixel⟩ := s.softReset_pixel
    rw [hpixel]
    exact ⟨fun h => absurd rfl h, fun h => absurd rfl h⟩
  | lost =>
    obtain ⟨himage, hbelieved⟩ := State.supplyLoss_planes { s with rail.pwrGood := false }
    exact ⟨fun h => absurd himage h, fun h => absurd hbelieved h⟩
  | frameEnd =>
    rw [State.installHeld_pixel, State.frameAdvanced_image]
    exact ⟨fun h => absurd rfl h, fun _ => .inl rfl⟩
  | cancel | stopAll | frameStart | passed | waits | refused | admitted =>
    rw [State.settlePass_pixel]
    exact ⟨fun h => absurd rfl h, fun h => absurd rfl h⟩
  | _ => exact ⟨fun h => absurd rfl h, fun h => absurd rfl h⟩

/-- Settles O24, from the writers among the steps. -/
theorem planeWriters : Obligations.PlaneWriters := fun _ _ _ ht =>
  exec_relates (fun c s t =>
      (t.pixel.image ≠ s.pixel.image → c = .writeImage ∨ c = .fillImage ∨ c = .panelSetup ∨ c = .powerOnReset) ∧
      (t.pixel.believed ≠ s.pixel.believed → c = .frameEnd ∨ c = .panelSetup ∨ c = .powerOnReset))
    (fun _ _ _ => Iff.rfl) (fun _ _ _ => CoreStep.planes) ht

/-! ### FAULTED -/

/-- The end of an admission pass leaves the rails as they are, or lowers them from a running pass (R119). -/
theorem State.settlePass_rail (s : State) : s.settlePass.rail = s.rail ∨
    (∃ n, s.frame.phase = .pass n) ∧ s.quiet = true ∧
      s.settlePass.rail = { s.rail with state := .falling s.rail.dischargeTime } := by
  rcases s.settlePass_cases with h | ⟨n, hphase, -, h⟩
  · exact .inl (by rw [h])
  · rw [h]
    unfold State.concludeStart
    dsimp only
    split
    next hidle => exact .inr ⟨⟨n, hphase⟩, hidle.1, rfl⟩
    next => exact .inl rfl

theorem State.settlePass_faulted {s : State} {cause : FaultCause} (h : s.settlePass.rail.state = .faulted cause) :
    s.rail.state = .faulted cause := by
  rcases s.settlePass_rail with hrail | ⟨-, -, hrail⟩
  · rw [← hrail, h]
  · rw [hrail] at h
    cases h

/-- With frame timing stopped there is no admission pass to end. -/
theorem State.settlePass_of_stopped {s : State} (h : s.frame.phase = .stopped) : s.settlePass = s := by
  simp only [State.settlePass, h]

theorem RailState.tick_eq_faulted (r : RailState) (cause : FaultCause) : r.tick = .faulted cause ↔ r = .faulted cause := by
  cases r <;> simp [RailState.tick]

theorem State.supplyLoss_rail (s : State) : s.supplyLoss.rail = { s.rail with state := .faulted .loss } := by
  simp [State.supplyLoss]

/-- FAULTED is entered by the two supply faults alone (R118, R121, R123). -/
theorem CoreStep.enters_faulted {s u : State} {c : Instr} (h : CoreStep s c u) {cause : FaultCause}
    (hu : u.rail.state = .faulted cause) : s.rail.state = .faulted cause ∨
      c = .rampTimerExpiry ∧ cause = .ramp ∧ s.rail.state = .rising 0 ∨ c = .pwrGoodLoss ∧ cause = .loss ∧ s.rail.state = .on := by
  cases h with
  | rampFault hrail =>
    cases hu
    exact .inr (.inl ⟨rfl, rfl, hrail⟩)
  | lost hrail =>
    rw [State.supplyLoss_rail] at hu
    cases hu
    exact .inr (.inr ⟨rfl, rfl, hrail⟩)
  | tick => exact .inl ((RailState.tick_eq_faulted _ _).1 hu)
  | resetPart =>
    have hrail : s.softReset.rail = s.rail.softReset := by simp [State.softReset]
    rw [hrail, RailController.softReset] at hu
    dsimp only at hu
    split at hu <;> cases hu
  | frameEnd =>
    rw [State.installHeld_rail, State.frameAdvanced, State.foldl_advanceSlot_rail] at hu
    exact .inl hu
  | cancel | stopAll | frameStart | passed | waits | refused | admitted =>
    have hbefore := State.settlePass_faulted hu
    exact .inl hbefore
  | powerOnReset | tickOn | queuedRising | resume | pwrGoodOn | discharged | dischargedRising => cases hu
  | _ => exact .inl hu

/-- FAULTED is left by RAIL_RESUME and the resets alone, as frame timing does not run in it (R124, R126). -/
theorem CoreStep.leaves_faulted {s u : State} {c : Instr} (h : CoreStep s c u) {cause : FaultCause}
    (hs : s.rail.state = .faulted cause) (hphase : s.frame.phase = .stopped) : u.rail.state = .faulted cause ∨
      c = .railResume ∨ c = .resetPart ∨ c = .powerOnReset := by
  cases h with
  | powerOnReset | resetPart | resume => exact .inr (by simp)
  | tick => exact .inl ((RailState.tick_eq_faulted _ _).2 hs)
  | cancel =>
    rw [State.settlePass_of_stopped (by simp [FramePhase.without, hphase])]
    exact .inl hs
  | stopAll =>
    rw [State.settlePass_of_stopped (by simp [FramePhase.passAt, hphase])]
    exact .inl hs
  | tickOn n hrail | pwrGoodOn n hrail => cases hs.symm.trans hrail
  | queuedRising e hkept hroom hrail | rampFault hrail | lost hrail | discharged hrail | dischargedRising hrail
  | frameStart hrail | frameEnd hrail => cases hs.symm.trans hrail
  | passed n hrail | waits n hrail | refused n hrail | admitted n i e eff esc hrail => cases hs.symm.trans hrail
  | _ => exact .inl hs

/-- Settles O57, from the steps that enter FAULTED and those that leave it. -/
theorem faultedLeftByHost : Obligations.FaultedLeftByHost := fun _ _ _ ht =>
  exec_relates (fun c s t =>
      (∀ cause, s.rail.state = .faulted cause → s.frame.phase = .stopped → t.rail.state ≠ .faulted cause →
        c = .railResume ∨ c = .resetPart ∨ c = .powerOnReset) ∧
      (∀ cause, t.rail.state = .faulted cause → s.rail.state ≠ .faulted cause →
        c = .rampTimerExpiry ∧ cause = .ramp ∧ s.rail.state = .rising 0 ∨
        c = .pwrGoodLoss ∧ cause = .loss ∧ s.rail.state = .on))
    (fun _ _ _ => Iff.rfl)
    (fun _ _ _ hstep => ⟨fun _ hs hphase hu => (hstep.leaves_faulted hs hphase).resolve_left hu,
      fun _ hu hs => (hstep.enters_faulted hu).resolve_left hs⟩) ht

end Sys2Proof.Machine
end

section
/-! PROOF. Chapters 1 and 4: the panel's rectangles, and the panel plane that every command keeps sound (R7, R58, R59). -/

namespace Sys2Proof.Machine

/-! ### The geometry of the panel -/

/-- The pixel store with its planes blank: what a command other than PANEL_SETUP and the power-on reset keeps. -/
def PixelStore.geometry (p : PixelStore) : PixelStore := { p with image := [], believed := [], next := [] }

theorem PixelStore.geometry_eq_iff (p q : PixelStore) : p.geometry = q.geometry ↔
    p.setUp = q.setUp ∧ p.width = q.width ∧ p.height = q.height ∧ p.tileCols = q.tileCols ∧ p.tileRows = q.tileRows := by
  simp [PixelStore.geometry]

theorem PixelStore.kept_congr {p q : PixelStore} (h : p.geometry = q.geometry) (r : Rect) (t : TileRect) :
    p.kept r t ↔ q.kept r t := by
  obtain ⟨-, hw, hh, -, -⟩ := (PixelStore.geometry_eq_iff p q).1 h
  simp only [PixelStore.kept, hw, hh]

theorem PixelStore.driveSet_congr {p q : PixelStore} (h : p.geometry = q.geometry) (sl : Slot) :
    p.driveSet sl = q.driveSet sl := by
  obtain ⟨-, hw, hh, -, -⟩ := (PixelStore.geometry_eq_iff p q).1 h
  simp only [PixelStore.driveSet, PixelStore.extent, hw, hh]

@[simp] theorem State.finishSlot_geometry (s : State) (i : Fin 16) (sl : Slot) (o : UpdateOutcome) (n : Nat) :
    (s.finishSlot i sl o n).pixel.geometry = s.pixel.geometry := by
  rw [State.finishSlot_pixel]
  split <;> rfl

theorem State.advanceSlot_geometry (s : State) (i : Fin 16) :
    (s.advanceSlot i).pixel.geometry = s.pixel.geometry := by
  rcases s.advanceSlot_cases i with ⟨-, h⟩ | ⟨sl, -, ⟨-, h⟩ | ⟨-, -, h⟩ | ⟨-, -, h⟩⟩ <;> simp [h]

theorem State.abortSlot_geometry (s : State) (i : Fin 16) : (s.abortSlot i).pixel.geometry = s.pixel.geometry := by
  rcases s.abortSlot_cases i with ⟨-, h⟩ | ⟨sl, -, h⟩ <;> simp [h]

@[simp] theorem State.frameAdvanced_geometry (s : State) : s.frameAdvanced.pixel.geometry = s.pixel.geometry :=
  foldl_keeps (fun t => t.pixel.geometry = s.pixel.geometry) State.advanceSlot _
    (fun t i _ h => (t.advanceSlot_geometry i).trans h) rfl

@[simp] theorem State.supplyLoss_geometry (s : State) : s.supplyLoss.pixel.geometry = s.pixel.geometry := by
  rw [State.supplyLoss_pixel]
  exact foldl_keeps (fun t => t.pixel.geometry = s.pixel.geometry) State.abortSlot _
    (fun t i _ h => (t.abortSlot_geometry i).trans h) rfl

@[simp] theorem State.softReset_geometry (s : State) : s.softReset.pixel.geometry = s.pixel.geometry := by
  obtain ⟨next, h⟩ := s.softReset_pixel
  rw [h]
  rfl

theorem CoreStep.geometry {s u : State} {c : Instr} (h : CoreStep s c u) (hreset : c ≠ .powerOnReset)
    (hsetup : c ≠ .panelSetup) : u.pixel.geometry = s.pixel.geometry := by
  cases h with
  | powerOnReset => exact absurd rfl hreset
  | panelSetup => exact absurd rfl hsetup
  | resetPart => exact s.softReset_geometry
  | lost => exact State.supplyLoss_geometry _
  | frameEnd =>
    rw [State.installHeld_pixel]
    exact s.frameAdvanced_geometry
  | cancel | stopAll | frameStart | passed | waits | refused | admitted =>
    exact (congrArg PixelStore.geometry (State.settlePass_pixel _)).trans rfl
  | _ => rfl

/-! ### Rectangles and hulls -/

/-- The extent of a hull is the whole of its tiles on the panel, so its hull is the hull (R3, R59, R122). -/
theorem PixelStore.kept_extent {p : PixelStore} {r : Rect} {h : TileRect} (hk : p.kept r h) : p.kept (p.extent h) h := by
  obtain ⟨hx, hy, hw, hh, rfl⟩ := hk
  refine ⟨?_, ?_, ?_, ?_, ?_⟩
  · simp only [PixelStore.extent, hullOf, Config.tileSide]
    omega
  · simp only [PixelStore.extent, hullOf, Config.tileSide]
    omega
  · simp only [PixelStore.extent, hullOf, Config.tileSide]
    omega
  · simp only [PixelStore.extent, hullOf, Config.tileSide]
    omega
  · simp only [PixelStore.extent, hullOf, Config.tileSide, TileRect.mk.injEq]
    omega

/-- A drive set lies within the addresses of a plane. -/
theorem PixelStore.driveSet_bounded {p : PixelStore} {sl : Slot} (hk : p.kept sl.rect sl.hull)
    (hw : p.width ≤ Config.planeStride) : (p.driveSet sl).w = 0 ∨ (p.driveSet sl).x + (p.driveSet sl).w ≤ Config.planeStride := by
  right
  unfold PixelStore.driveSet
  split
  · exact (PixelStore.kept_extent hk).1.trans hw
  · exact hk.1.trans hw

theorem State.rectsSound.slot_kept {s : State} (h : s.rectsSound) {i : Fin 16} {sl : Slot} (hsl : s.frame.slots[i] = some sl) :
    s.pixel.kept sl.rect sl.hull := by
  obtain ⟨-, -, -, -, hslots⟩ := h
  exact hslots i sl hsl

theorem State.rectsSound.entry_kept {s : State} (h : s.rectsSound) {e : PendingEntry} (he : e ∈ s.sched.queue) :
    s.pixel.kept e.rect e.hull := by
  obtain ⟨-, -, -, hqueue, -⟩ := h
  exact hqueue e he

theorem State.rectsSound.width_le {s : State} (h : s.rectsSound) : s.pixel.width ≤ Config.planeStride := h.1

/-- Rectangles stay true to a panel that keeps its geometry. -/
theorem State.rectsSound.of_kept {s t : State} (hs : s.rectsSound) (hg : t.pixel.geometry = s.pixel.geometry)
    (hqueue : ∀ e ∈ t.sched.queue, s.pixel.kept e.rect e.hull)
    (hslots : ∀ (i : Fin 16) sl, t.frame.slots[i] = some sl → s.pixel.kept sl.rect sl.hull) : t.rectsSound := by
  obtain ⟨hw, hcols, hrows, -, -⟩ := hs
  obtain ⟨-, ew, eh, ec, er⟩ := (PixelStore.geometry_eq_iff _ _).1 hg
  refine ⟨by rw [ew]; exact hw, by rw [ec, ew]; exact hcols, by rw [er, eh]; exact hrows,
    fun e he => (PixelStore.kept_congr hg _ _).2 (hqueue e he),
    fun i sl hsl => (PixelStore.kept_congr hg _ _).2 (hslots i sl hsl)⟩

theorem SlotsWithin.kept {s t : State} (h : SlotsWithin s.frame t.frame) (hs : s.rectsSound) (i : Fin 16) (v : Slot)
    (hv : t.frame.slots[i] = some v) : s.pixel.kept v.rect v.hull := by
  obtain ⟨u, hu, hkept, -⟩ := h i v hv
  have hrects := hs.slot_kept hu
  rw [hkept]
  exact hrects

/-- The slots that an event frees were active before it. -/
theorem mem_freedSlots {s t : State} {sl : Slot} (h : sl ∈ freedSlots s t) :
    ∃ i ∈ s.frame.admissions, t.frame.slots[i] = none ∧ s.frame.slots[i] = some sl := by
  obtain ⟨i, hi, hsl⟩ := List.mem_filterMap.1 h
  split at hsl
  next hnone => exact ⟨i, hi, by simpa using hnone, hsl⟩
  next => cases hsl

/-- The queue after a loss of the supply: recovery entries of slots active before, and the old entries (R122). -/
theorem State.supplyLoss_queue (s : State) : ∀ e ∈ s.supplyLoss.sched.queue, e ∈ s.sched.queue ∨
    ∃ (i : Fin 16) (sl : Slot), s.frame.slots[i] = some sl ∧ e.rect = s.supplyLoss.pixel.extent sl.hull ∧ e.hull = sl.hull := by
  intro e he
  rw [State.supplyLoss_pixel]
  rw [State.supplyLoss_sched] at he
  unfold State.recover at he
  split at he
  · rcases List.mem_append.1 he with hnew | hold
    · obtain ⟨sl, hsl, rfl⟩ := List.mem_map.1 (List.mem_of_mem_take hnew)
      obtain ⟨i, -, -, hi⟩ := mem_freedSlots hsl
      exact .inr ⟨i, sl, hi, rfl, rfl⟩
    · rw [State.aborted_sched] at hold
      exact .inl hold
  · rw [State.aborted_sched] at he
    exact .inl he

theorem CoreStep.queue_kept {s u : State} {c : Instr} (h : CoreStep s c u) (hs : s.rectsSound) :
    ∀ e ∈ u.sched.queue, s.pixel.kept e.rect e.hull := by
  intro e he
  cases h with
  | powerOnReset => cases he
  | resetPart => cases he
  | queued e' hkept | queuedRising e' hkept =>
    rcases List.mem_append.1 he with hold | hnew
    · exact hs.entry_kept hold
    · rw [List.mem_singleton.1 hnew]
      exact hkept
  | cancel gone =>
    rw [State.settlePass_sched] at he
    exact hs.entry_kept (List.mem_of_mem_filter he)
  | stopAll =>
    rw [State.settlePass_sched] at he
    cases he
  | lost =>
    rcases State.supplyLoss_queue _ e he with hold | ⟨i, sl, hsl, hrect, hhull⟩
    · exact hs.entry_kept hold
    · have hg := State.supplyLoss_geometry { s with rail.pwrGood := false }
      have hkept := PixelStore.kept_extent ((PixelStore.kept_congr hg _ _).2 (hs.slot_kept hsl))
      rw [hrect, hhull]
      exact (PixelStore.kept_congr hg _ _).1 hkept
  | frameStart | passed | waits =>
    rw [State.settlePass_sched] at he
    exact hs.entry_kept he
  | refused n | admitted n =>
    rw [State.settlePass_sched] at he
    exact hs.entry_kept (List.mem_of_mem_eraseIdx he)
  | frameEnd =>
    rw [State.installHeld_sched, State.frameAdvanced, State.foldl_advanceSlot_sched] at he
    exact hs.entry_kept he
  | _ => exact hs.entry_kept he

theorem CoreStep.slots_kept {s u : State} {c : Instr} (h : CoreStep s c u) (hs : s.rectsSound) :
    ∀ (i : Fin 16) sl, u.frame.slots[i] = some sl → s.pixel.kept sl.rect sl.hull := by
  intro j v hv
  rcases h.slots with hwithin | hadmitted
  · exact hwithin.kept hs j v hv
  · obtain ⟨i, e, he, eff, esc, -, -, -, hslots⟩ := hadmitted
    rw [hslots, FrameEngine.slots_setSlot] at hv
    split at hv
    · cases hv
      exact hs.entry_kept he
    · exact hs.slot_kept hv

theorem State.rectsSound_reset : State.reset.rectsSound :=
  ⟨by decide, rfl, rfl, fun _ he => (by cases he), fun i sl hsl => (by rw [State.reset_slots] at hsl; cases hsl)⟩

/-- Every step keeps the rectangles and hulls true to the panel. -/
theorem CoreStep.rectsSound {s u : State} {c : Instr} (h : CoreStep s c u) (hs : s.rectsSound) : u.rectsSound := by
  by_cases hreset : c = .powerOnReset
  · subst hreset
    cases h with
    | powerOnReset => exact State.rectsSound_reset
    | paint _ _ _ hc => simp at hc
    | sensor _ _ hu => cases hu
    | _ => exact hs
  · by_cases hsetup : c = .panelSetup
    · subst hsetup
      cases h with
      | panelSetup w h period hoff hquiet hw =>
        obtain ⟨hslots, hqueue⟩ := (State.quiet_iff s).1 hquiet
        refine ⟨hw, rfl, rfl, fun e he => ?_, fun i sl hsl => ?_⟩
        · change e ∈ s.sched.queue at he
          rw [hqueue] at he
          cases he
        · cases (hslots i).symm.trans hsl
      | paint _ _ _ hc => simp at hc
      | sensor _ _ hu => cases hu
      | _ => exact hs
    · exact hs.of_kept (h.geometry hreset hsetup) (h.queue_kept hs) (h.slots_kept hs)

/-! ### The planes -/

/-- What a change of planes and slots must give for the levels to stay in agreement: where the two levels of a pixel differ
after it, they differed before, and every slot that drove the pixel still does; a change may agree them by its own. -/
theorem State.levelsAgree.of_driven {s t : State} (hs : s.levelsAgree)
    (h : ∀ x y, x < Config.planeStride → t.pixel.next.level x y = t.pixel.believed.level x y ∨
      (t.pixel.next.level x y = t.pixel.believed.level x y ↔ s.pixel.next.level x y = s.pixel.believed.level x y) ∧
      ∀ (i : Fin 16) sl, s.frame.slots[i] = some sl → (s.pixel.driveSet sl).has x y = true →
        ∃ (j : Fin 16) (v : Slot), t.frame.slots[j] = some v ∧ (t.pixel.driveSet v).has x y = true) : t.levelsAgree := by
  intro x y hx hfree
  rcases h x y hx with hagree | ⟨hiff, hdriven⟩
  · exact hagree
  · refine hiff.2 (hs x y hx fun i sl hsl => ?_)
    by_contra hhas
    obtain ⟨j, v, hv, hv'⟩ := hdriven i sl hsl (by simpa using hhas)
    rw [hfree j v hv] at hv'
    cases hv'

/-- Levels stay in agreement where neither plane of levels changes and every slot goes on to drive what it drove. -/
theorem State.levelsAgree.of_same {s t : State} (hs : s.levelsAgree) (hg : t.pixel.geometry = s.pixel.geometry)
    (hnext : t.pixel.next = s.pixel.next) (hbelieved : t.pixel.believed = s.pixel.believed)
    (hslots : ∀ (i : Fin 16) sl, s.frame.slots[i] = some sl →
      ∃ v, t.frame.slots[i] = some v ∧ t.pixel.driveSet v = t.pixel.driveSet sl) : t.levelsAgree := by
  refine hs.of_driven fun x y _ => .inr ⟨by rw [hnext, hbelieved], fun i sl hsl hhas => ?_⟩
  obtain ⟨v, hv, hset⟩ := hslots i sl hsl
  exact ⟨i, v, hv, by rw [hset, PixelStore.driveSet_congr hg]; exact hhas⟩

/-- The end of a slot agrees the two levels of what it drove, by its outcome, and leaves every other level alone (R16, R17). -/
theorem State.level_finishSlot {s : State} {i : Fin 16} {sl : Slot} (o : UpdateOutcome) (n : Nat) (hm : s.memoryCanonical)
    (hr : s.rectsSound) (hsl : s.frame.slots[i] = some sl) (x y : Nat) (hx : x < Config.planeStride) :
    (s.finishSlot i sl o n).pixel.believed.level x y =
      (if o = .done ∧ (s.pixel.driveSet sl).has x y = true then s.pixel.next.level x y else s.pixel.believed.level x y) ∧
    (s.finishSlot i sl o n).pixel.next.level x y =
      (if o ≠ .done ∧ (s.pixel.driveSet sl).has x y = true then s.pixel.believed.level x y else s.pixel.next.level x y) := by
  obtain ⟨-, hbelieved, hnext, -⟩ := hm
  have hbound := PixelStore.driveSet_bounded (hr.slot_kept hsl) hr.width_le
  rw [State.finishSlot_pixel]
  by_cases ho : o = .done
  · simp only [ho, if_true, true_and, ne_eq, not_true_eq_false, false_and, if_false, and_true]
    exact Plane.level_paint _ _ _ hbelieved hbound x y hx
  · simp only [ho, if_false, true_and, ne_eq, not_false_eq_true, false_and]
    exact Plane.level_paint _ _ _ hnext hbound x y hx

theorem State.planeSound.canonical {s : State} (h : s.planeSound) : s.memoryCanonical := h.1
theorem State.planeSound.rects {s : State} (h : s.planeSound) : s.rectsSound := h.2.1
theorem State.planeSound.agree {s : State} (h : s.planeSound) : s.levelsAgree := h.2.2

/-- Beside the rectangles the panel plane is a matter of the planes, the staging buffer and the slots alone. -/
theorem State.planeSound.congr {s t : State} (hs : s.planeSound) (hrects : t.rectsSound) (hpixel : t.pixel = s.pixel)
    (hstaging : t.wave.staging = s.wave.staging) (hslots : t.frame.slots = s.frame.slots) : t.planeSound := by
  have hm := hs.canonical
  have hagree := hs.agree
  unfold State.memoryCanonical at hm
  unfold State.levelsAgree at hagree
  unfold State.planeSound State.memoryCanonical State.levelsAgree
  rw [hpixel, hstaging, hslots]
  exact ⟨hm, hrects, hagree⟩

theorem State.rectsSound.finishSlot {s : State} (hs : s.rectsSound) (i : Fin 16) (sl : Slot) (o : UpdateOutcome) (n : Nat) :
    (s.finishSlot i sl o n).rectsSound := by
  refine hs.of_kept (s.finishSlot_geometry i sl o n) (fun e he => ?_) ((slotsWithin_finishSlot s i sl o n).kept hs)
  rw [State.finishSlot_sched] at he
  exact hs.entry_kept he

theorem State.memoryCanonical.finishSlot {s : State} (hs : s.memoryCanonical) (i : Fin 16) (sl : Slot) (o : UpdateOutcome)
    (n : Nat) : (s.finishSlot i sl o n).memoryCanonical := by
  obtain ⟨himage, hbelieved, hnext, hstaging⟩ := hs
  refine ⟨by rw [State.finishSlot_image]; exact himage, ?_, ?_, by rw [State.finishSlot_wave]; exact hstaging⟩
  all_goals
    rw [State.finishSlot_pixel]
    split
  · exact Plane.wf_paint _ _ _ hbelieved
  · exact hbelieved
  · exact hnext
  · exact Plane.wf_paint _ _ _ hnext

theorem State.planeSound.finishSlot {s : State} {i : Fin 16} {sl : Slot} (hs : s.planeSound)
    (hsl : s.frame.slots[i] = some sl) (o : UpdateOutcome) (n : Nat) : (s.finishSlot i sl o n).planeSound := by
  refine ⟨hs.canonical.finishSlot i sl o n, hs.rects.finishSlot i sl o n, hs.agree.of_driven fun x y hx => ?_⟩
  · obtain ⟨hbelieved, hnext⟩ := State.level_finishSlot o n hs.canonical hs.rects hsl x y hx
    rw [hbelieved, hnext]
    cases hhas : (s.pixel.driveSet sl).has x y with
    | true =>
      left
      by_cases ho : o = .done <;> simp [ho]
    | false =>
      refine .inr ⟨by simp, fun j v hv hvhas => ?_⟩
      have hij : i ≠ j := by
        rintro rfl
        cases hsl.symm.trans hv
        rw [hhas] at hvhas
        cases hvhas
      have hkept : (s.frame.setSlot i none).slots[j] = some v := by
        rw [FrameEngine.slots_setSlot, if_neg hij]
        exact hv
      exact ⟨j, v, by rw [State.finishSlot_frame]; exact hkept,
        by rw [PixelStore.driveSet_congr (s.finishSlot_geometry i sl o n)]; exact hvhas⟩

theorem State.planeSound.abortSlot {s : State} (hs : s.planeSound) (i : Fin 16) : (s.abortSlot i).planeSound := by
  rcases s.abortSlot_cases i with ⟨-, h⟩ | ⟨sl, hsl, h⟩
  · rw [h]
    exact hs
  · rw [h]
    exact hs.finishSlot hsl _ _

theorem State.planeSound.advanceSlot {s : State} (hs : s.planeSound) (i : Fin 16) : (s.advanceSlot i).planeSound := by
  have hrects : (s.advanceSlot i).rectsSound := by
    refine hs.rects.of_kept (s.advanceSlot_geometry i) (fun e he => ?_) ((slotsWithin_advanceSlot s i).kept hs.rects)
    rw [State.advanceSlot_sched] at he
    exact hs.rects.entry_kept he
  rcases s.advanceSlot_cases i with ⟨-, h⟩ | ⟨sl, hsl, ⟨-, h⟩ | ⟨-, -, h⟩ | ⟨-, -, h⟩⟩
  · rw [h]
    exact hs
  · rw [h]
    exact hs.finishSlot hsl _ _
  · rw [h]
    exact hs.finishSlot hsl _ _
  · rw [h] at hrects ⊢
    refine ⟨hs.canonical, hrects, hs.agree.of_same rfl rfl rfl fun j v hv => ?_⟩
    by_cases hij : i = j
    · subst hij
      cases hsl.symm.trans hv
      exact ⟨{ sl with index := sl.index + 1 }, (FrameEngine.slots_setSlot _ _ _ _).trans (if_pos rfl), rfl⟩
    · exact ⟨v, (FrameEngine.slots_setSlot _ _ _ _).trans ((if_neg hij).trans hv), rfl⟩

/-- The silent end of a slot does to the planes and the slots what an abort does (R18). -/
theorem State.planeSound.freeSlotSilently {s : State} {i : Fin 16} {sl : Slot} (hs : s.planeSound)
    (hsl : s.frame.slots[i] = some sl) : (s.freeSlotSilently (i, sl)).planeSound := by
  have hended := hs.finishSlot hsl .aborted 0
  have hframe : (s.freeSlotSilently (i, sl)).frame.slots = (s.finishSlot i sl .aborted 0).frame.slots := by
    rw [State.finishSlot_frame]
    rfl
  have hpixel : (s.freeSlotSilently (i, sl)).pixel = (s.finishSlot i sl .aborted 0).pixel := by
    rw [State.finishSlot_pixel]
    rfl
  refine hended.congr (hended.rects.of_kept (by rw [hpixel]) (fun e he => hended.rects.entry_kept ?_) (fun j v hv => ?_))
    hpixel ?_ hframe
  · rw [State.finishSlot_sched]
    exact he
  · rw [hframe] at hv
    exact hended.rects.slot_kept hv
  · rw [State.finishSlot_wave]
    rfl

theorem State.planeSound.softReset {s : State} (hs : s.planeSound) : s.softReset.planeSound := by
  have hfreed : (s.frame.active.foldl State.freeSlotSilently s).planeSound :=
    State.freeAll_keeps State.planeSound (fun _ _ _ hsl ht => ht.freeSlotSilently hsl) hs
  obtain ⟨himage, hbelieved, hnext, -⟩ := hfreed.canonical
  have hrects := (CoreStep.resetPart (s := s)).rectsSound hs.rects
  exact ⟨⟨himage, hbelieved, hnext, rfl⟩, hrects, hfreed.agree⟩

/-- The admission of an entry to a FREE slot latches levels inside its drive set alone (R15). -/
theorem State.planeSound.fillSlot {s : State} {i : Fin 16} {e : PendingEntry} {eff : Mode} {esc : Bool} {b : Fin 8}
    (hs : s.planeSound) (he : e ∈ s.sched.queue) (hfree : s.frame.slots[i] = none) :
    (s.fillSlot i e eff esc b).memoryCanonical ∧ (s.fillSlot i e eff esc b).levelsAgree := by
  obtain ⟨himage, hbelieved, hnext, hstaging⟩ := hs.canonical
  refine ⟨⟨himage, hbelieved, Plane.wf_paint _ _ _ hnext, hstaging⟩, fun x y hx hout => ?_⟩
  have hnew : (s.fillSlot i e eff esc b).frame.slots[i] = some (s.admittedSlot e eff esc b) :=
    (FrameEngine.slots_setSlot _ _ _ _).trans (if_pos rfl)
  have hout' := hout i _ hnew
  have hlevel : (s.fillSlot i e eff esc b).pixel.next.level x y = if (s.pixel.driveSet (s.admittedSlot e eff esc b)).has x y
      then s.latchLevel e eff x y else s.pixel.next.level x y :=
    Plane.level_paint _ _ _ hnext (PixelStore.driveSet_bounded (hs.rects.entry_kept he) hs.rects.width_le) x y hx
  rw [hlevel, if_neg (by rw [show (s.pixel.driveSet (s.admittedSlot e eff esc b)).has x y = false from hout']; simp)]
  refine hs.agree x y hx fun j v hv => ?_
  have hij : i ≠ j := by
    rintro rfl
    cases hfree.symm.trans hv
  exact hout j v ((FrameEngine.slots_setSlot _ _ _ _).trans ((if_neg hij).trans hv))

/-- Every step keeps the panel plane sound. -/
theorem CoreStep.planeSound {s u : State} {c : Instr} (h : CoreStep s c u) (hs : s.planeSound) : u.planeSound := by
  have hrects := h.rectsSound hs.rects
  cases h with
  | powerOnReset => exact ⟨⟨rfl, rfl, rfl, rfl⟩, hrects, fun _ _ _ _ => rfl⟩
  | resetPart => exact hs.softReset
  | panelSetup =>
    obtain ⟨-, -, -, hstaging⟩ := hs.canonical
    exact ⟨⟨rfl, rfl, rfl, hstaging⟩, hrects, fun _ _ _ _ => rfl⟩
  | paint r f p =>
    obtain ⟨himage, hother⟩ := hs.canonical
    exact ⟨⟨Plane.wf_paint _ _ _ himage, hother⟩, hrects, hs.agree⟩
  | load =>
    obtain ⟨himage, hbelieved, hnext, hstaging⟩ := hs.canonical
    exact ⟨⟨himage, hbelieved, hnext, Memory.wf_writeEach _ _ _ _ hstaging⟩, hrects, hs.agree⟩
  | stopAll =>
    refine ⟨?_, hrects, hs.agree.of_same ?_ ?_ ?_ fun i sl hsl => ⟨sl.stop, ?_, rfl⟩⟩
    · unfold State.memoryCanonical
      rw [State.settlePass_pixel, State.settlePass_wave]
      exact hs.canonical
    · rw [State.settlePass_pixel]
    · rw [State.settlePass_pixel]
    · rw [State.settlePass_pixel]
    · rw [State.settlePass_slots, Fin.getElem_fin, Vector.getElem_map, ← Fin.getElem_fin, hsl]
      rfl
  | lost =>
    have haborted : (State.aborted { s with rail.pwrGood := false }).planeSound :=
      foldl_keeps State.planeSound State.abortSlot _ (fun _ i _ ht => ht.abortSlot i) hs
    refine haborted.congr hrects (State.supplyLoss_pixel _) ?_ (by rw [State.supplyLoss_frame])
    rw [State.supplyLoss_wave, State.installHeld_staging, State.recover_wave]
  | frameEnd =>
    have hadvanced : s.frameAdvanced.planeSound :=
      foldl_keeps State.planeSound State.advanceSlot _ (fun _ i _ ht => ht.advanceSlot i) hs
    exact hadvanced.congr hrects (State.installHeld_pixel _ _) (State.installHeld_staging _ _)
      (by rw [State.installHeld_frame])
  | admitted n i e eff esc hrail hphase hentry hgo hfree =>
    obtain ⟨hnone, -⟩ := (FrameEngine.freeSlot_eq_some _ _).1 hfree
    have hfilled : ({ s.fillSlot i e eff esc s.temp.band with sched.queue := s.sched.queue.eraseIdx n } : State).planeSound := by
      obtain ⟨hm, hagree⟩ := hs.fillSlot (List.mem_of_getElem? hentry) hnone (eff := eff) (esc := esc) (b := s.temp.band)
      refine ⟨hm, hrects.of_kept (by rw [State.settlePass_pixel]) (fun e' he' => ?_) (fun j v hv => ?_), hagree⟩
      · exact hrects.entry_kept (by rw [State.settlePass_sched]; exact he')
      · exact hrects.slot_kept (by rw [State.settlePass_slots]; exact hv)
    exact hfilled.congr hrects (State.settlePass_pixel _) (by rw [State.settlePass_wave]) (State.settlePass_slots _)
  | cancel | frameStart | passed | waits | refused =>
    exact hs.congr hrects (State.settlePass_pixel _) (congrArg WaveformStore.staging (State.settlePass_wave _))
      (State.settlePass_slots _)
  | _ => exact ⟨hs.canonical, hrects, hs.agree⟩

/-- Settles O25: the panel plane is sound along every step, because a level is latched inside a drive set alone and the end
of a slot agrees the levels of its drive set. -/
theorem nextAgreesOutsideDriveSets : Obligations.NextAgreesOutsideDriveSets := fun _ _ _ hs ht =>
  exec_keeps State.planeSound (fun _ => Iff.rfl) (fun _ _ _ => CoreStep.planeSound) hs ht

end Sys2Proof.Machine
end

section
/-! PROOF. Chapters 5 and 6: the ledger of tiles, slots and rails that every command keeps (R74, R96, R97). -/

namespace Sys2Proof.Machine

/-! ### The admission list -/

theorem FrameEngine.isActive_setSlot_none (f : FrameEngine) (i j : Fin 16) :
    (f.setSlot i none).isActive j ↔ j ≠ i ∧ f.isActive j := by
  unfold FrameEngine.isActive
  rw [FrameEngine.slots_setSlot]
  split
  next h => simp [h]
  next h => exact ⟨fun ha => ⟨fun he => h he.symm, ha⟩, And.right⟩

theorem FrameEngine.isActive_setSlot_some (f : FrameEngine) (i j : Fin 16) (sl : Slot) :
    (f.setSlot i (some sl)).isActive j ↔ j = i ∨ f.isActive j := by
  unfold FrameEngine.isActive
  rw [FrameEngine.slots_setSlot]
  split
  next h => simp [h]
  next h => exact ⟨.inr, fun ha => ha.resolve_left fun he => h he.symm⟩

theorem FrameEngine.not_isActive_iff (f : FrameEngine) (i : Fin 16) : ¬ f.isActive i ↔ f.slots[i] = none := by
  unfold FrameEngine.isActive
  cases f.slots[i] <;> simp

theorem FrameEngine.isActive_map_stop (f : FrameEngine) (i : Fin 16) :
    ({ f with slots := f.slots.map (Option.map Slot.stop) } : FrameEngine).isActive i ↔ f.isActive i := by
  unfold FrameEngine.isActive
  rw [Fin.getElem_fin, Vector.getElem_map, ← Fin.getElem_fin]
  cases f.slots[i] <;> simp

/-- The admission list agrees with another engine of the same list and the same active slots. -/
theorem FrameEngine.listSound.congr {f g : FrameEngine} (hf : f.listSound) (hlist : g.admissions = f.admissions)
    (hactive : ∀ i, g.isActive i ↔ f.isActive i) : g.listSound := by
  obtain ⟨hnodup, hmem⟩ := hf
  refine ⟨hlist ▸ hnodup, fun i => ?_⟩
  rw [hlist, hactive]
  exact hmem i

theorem FrameEngine.listSound.of_empty {f : FrameEngine} (hlist : f.admissions = []) (hslots : ∀ i : Fin 16, f.slots[i] = none) :
    f.listSound := by
  refine ⟨hlist ▸ List.nodup_nil, fun i => ?_⟩
  rw [hlist]
  exact ⟨fun h => (by cases h), fun h => absurd h ((f.not_isActive_iff i).2 (hslots i))⟩

/-- The list loses the slot that ends (R97). -/
theorem FrameEngine.listSound.free {f : FrameEngine} (hf : f.listSound) (i : Fin 16) :
    ({ f.setSlot i none with admissions := f.admissions.filter (· ≠ i) } : FrameEngine).listSound := by
  obtain ⟨hnodup, hmem⟩ := hf
  refine ⟨hnodup.filter _, fun j => ?_⟩
  change j ∈ f.admissions.filter (· ≠ i) ↔ (f.setSlot i none).isActive j
  rw [FrameEngine.isActive_setSlot_none, List.mem_filter, hmem, decide_eq_true_eq, and_comm]

/-- The list gains the slot that is filled (R97). -/
theorem FrameEngine.listSound.fill {f : FrameEngine} (hf : f.listSound) {i : Fin 16} (hfree : f.slots[i] = none) (sl : Slot) :
    ({ f.setSlot i (some sl) with admissions := f.admissions ++ [i] } : FrameEngine).listSound := by
  obtain ⟨hnodup, hmem⟩ := hf
  have hnot : i ∉ f.admissions := fun h => (f.not_isActive_iff i).2 hfree ((hmem i).1 h)
  refine ⟨?_, fun j => ?_⟩
  · exact List.nodup_append.2 ⟨hnodup, List.nodup_singleton i, fun a ha b hb he => hnot (by
      rw [← List.mem_singleton.1 hb, ← he]; exact ha)⟩
  · change j ∈ f.admissions ++ [i] ↔ (f.setSlot i (some sl)).isActive j
    rw [FrameEngine.isActive_setSlot_some, List.mem_append, List.mem_singleton, hmem, or_comm]

/-! ### The owners of tiles -/

theorem State.tile_congr {s t : State} (htiles : t.ghost.tiles = s.ghost.tiles) (hcols : t.pixel.tileCols = s.pixel.tileCols)
    (i j : Nat) : t.tile i j = s.tile i j := by
  rw [State.tile, State.tile, htiles, hcols]

/-- Owners stay right where the grid, the owner of every tile and the hull of every slot stay. -/
theorem State.ownersSound.congr {s t : State} (hs : s.ownersSound) (hlength : t.ghost.tiles.length = s.ghost.tiles.length)
    (hcols : t.pixel.tileCols = s.pixel.tileCols) (hrows : t.pixel.tileRows = s.pixel.tileRows)
    (howner : ∀ i j, i < s.pixel.tileCols → j < s.pixel.tileRows → (t.tile i j).owner = (s.tile i j).owner)
    (hhull : ∀ k : Fin 16, (t.frame.slots[k]).map Slot.hull = (s.frame.slots[k]).map Slot.hull) : t.ownersSound := by
  obtain ⟨hl, ho⟩ := hs
  refine ⟨by rw [hlength, hcols, hrows, hl], fun i j k hi hj => ?_⟩
  rw [hcols] at hi
  rw [hrows] at hj
  rw [howner i j hi hj, ho i j k hi hj]
  have hmap (f : FrameEngine) : (∃ sl, f.slots[k] = some sl ∧ sl.hull.has i j = true) ↔
      ∃ h, (f.slots[k]).map Slot.hull = some h ∧ h.has i j = true := by
    constructor
    · rintro ⟨sl, hsl, hhas⟩
      exact ⟨sl.hull, by rw [hsl]; rfl, hhas⟩
    · rintro ⟨h, hh, hhas⟩
      obtain ⟨sl, hsl, rfl⟩ := Option.map_eq_some_iff.1 hh
      exact ⟨sl, hsl, hhas⟩
  rw [hmap, hmap, hhull]

theorem State.ownersSound.of_same {s t : State} (hs : s.ownersSound) (htiles : t.ghost.tiles = s.ghost.tiles)
    (hg : t.pixel.geometry = s.pixel.geometry)
    (hhull : ∀ k : Fin 16, (t.frame.slots[k]).map Slot.hull = (s.frame.slots[k]).map Slot.hull) : t.ownersSound := by
  obtain ⟨-, -, -, hcols, hrows⟩ := (PixelStore.geometry_eq_iff _ _).1 hg
  exact hs.congr (congrArg List.length htiles) hcols hrows (fun i j _ _ => by rw [State.tile_congr htiles hcols]) hhull

/-- Owners outlast the end of an admission pass. -/
theorem State.ownersSound.settlePass {s : State} (hs : s.ownersSound) : s.settlePass.ownersSound :=
  hs.of_same (by rw [State.settlePass_ghost]) (by rw [State.settlePass_pixel]) fun k => by rw [State.settlePass_slots]

/-- Owners stay right where a slot ends and the tiles of its hull are released: no other slot holds a tile of it. -/
theorem State.ownersSound.release {s t : State} (hs : s.ownersSound) {i : Fin 16} {sl : Slot} (c : Option Condition)
    (hsl : s.frame.slots[i] = some sl) (htiles : t.ghost.tiles = (s.releaseTiles sl.hull c).ghost.tiles)
    (hcols : t.pixel.tileCols = s.pixel.tileCols) (hrows : t.pixel.tileRows = s.pixel.tileRows)
    (hslots : ∀ k : Fin 16, t.frame.slots[k] = if i = k then none else s.frame.slots[k]) : t.ownersSound := by
  obtain ⟨hl, ho⟩ := hs
  refine ⟨by rw [htiles, hcols, hrows, ← hl]; exact State.length_mapTiles _ _ _, fun x y k hx hy => ?_⟩
  rw [hcols] at hx
  rw [hrows] at hy
  have htile : t.tile x y = (s.releaseTiles sl.hull c).tile x y := State.tile_congr htiles hcols x y
  rw [htile, State.tile_releaseTiles s sl.hull c x y hl hx hy, hslots]
  cases hhas : sl.hull.has x y with
  | true =>
    have hown : (s.tile x y).owner = some i := (ho x y i hx hy).2 ⟨sl, hsl, hhas⟩
    simp only [if_true]
    refine ⟨fun h => (by cases h), fun ⟨v, hv, hvhas⟩ => ?_⟩
    split at hv
    · cases hv
    next hik =>
      have := (ho x y k hx hy).2 ⟨v, hv, hvhas⟩
      exact absurd (Option.some.inj (hown.symm.trans this)) hik
  | false =>
    simp only [Bool.false_eq_true, if_false]
    rw [ho x y k hx hy]
    split
    next hik =>
      subst hik
      refine ⟨fun ⟨v, hv, hvhas⟩ => ?_, fun ⟨v, hv, _⟩ => (by cases hv)⟩
      cases hsl.symm.trans hv
      rw [hhas] at hvhas
      cases hvhas
    next => rfl

/-- Owners stay right where an unowned hull is claimed for a FREE slot (R71). -/
theorem State.ownersSound.claim {s t : State} (hs : s.ownersSound) {i : Fin 16} {sl : Slot}
    {f : Nat → Nat → TileRecord → TileRecord} (hf : ∀ x y r, (f x y r).owner = some i) (hfree : s.frame.slots[i] = none)
    (hhull : ∀ x y, sl.hull.has x y = true → (s.tile x y).owner = none)
    (htiles : t.ghost.tiles = (s.mapTiles sl.hull f).ghost.tiles)
    (hcols : t.pixel.tileCols = s.pixel.tileCols) (hrows : t.pixel.tileRows = s.pixel.tileRows)
    (hslots : ∀ k : Fin 16, t.frame.slots[k] = if i = k then some sl else s.frame.slots[k]) : t.ownersSound := by
  obtain ⟨hl, ho⟩ := hs
  refine ⟨by rw [htiles, hcols, hrows, ← hl]; exact State.length_mapTiles _ _ _, fun x y k hx hy => ?_⟩
  rw [hcols] at hx
  rw [hrows] at hy
  have htile : t.tile x y = (s.mapTiles sl.hull f).tile x y := State.tile_congr htiles hcols x y
  rw [htile, State.tile_mapTiles s sl.hull f x y hl hx hy, hslots]
  cases hhas : sl.hull.has x y with
  | true =>
    simp only [if_true, hf, Option.some.injEq]
    refine ⟨fun h => ⟨sl, by rw [if_pos h], hhas⟩, fun ⟨v, hv, hvhas⟩ => ?_⟩
    by_contra hik
    rw [if_neg hik] at hv
    cases (hhull x y hhas).symm.trans ((ho x y k hx hy).2 ⟨v, hv, hvhas⟩)
  | false =>
    simp only [Bool.false_eq_true, if_false]
    rw [ho x y k hx hy]
    by_cases hik : i = k
    · subst hik
      rw [if_pos rfl, hfree]
      refine ⟨fun ⟨v, hv, _⟩ => (by cases hv), fun ⟨v, hv, hvhas⟩ => ?_⟩
      cases hv
      rw [hhas] at hvhas
      cases hvhas
    · rw [if_neg hik]

/-! ### Slots that end -/

theorem State.ownersSound.finishSlot {s : State} (hs : s.ownersSound) {i : Fin 16} {sl : Slot}
    (hsl : s.frame.slots[i] = some sl) (o : UpdateOutcome) (n : Nat) : (s.finishSlot i sl o n).ownersSound := by
  obtain ⟨-, -, -, hcols, hrows⟩ := (PixelStore.geometry_eq_iff _ _).1 (s.finishSlot_geometry i sl o n)
  refine hs.release _ hsl (congrArg GhostPlanner.tiles (s.finishSlot_ghost i sl o n)) hcols hrows fun k => ?_
  rw [State.finishSlot_frame]
  exact FrameEngine.slots_setSlot _ _ _ _

theorem State.ownersSound.abortSlot {s : State} (hs : s.ownersSound) (i : Fin 16) : (s.abortSlot i).ownersSound := by
  rcases s.abortSlot_cases i with ⟨-, h⟩ | ⟨sl, hsl, h⟩
  · rw [h]
    exact hs
  · rw [h]
    exact hs.finishSlot hsl _ _

/-- The frame engine with the next frame index in slot `i`. -/
theorem FrameEngine.hull_setSlot_index (f : FrameEngine) {i : Fin 16} {sl : Slot} (hsl : f.slots[i] = some sl) (n : Nat)
    (k : Fin 16) : ((f.setSlot i (some { sl with index := n })).slots[k]).map Slot.hull = (f.slots[k]).map Slot.hull := by
  rw [FrameEngine.slots_setSlot]
  split
  next h =>
    subst h
    rw [hsl]
    rfl
  next => rfl

theorem State.ownersSound.advanceSlot {s : State} (hs : s.ownersSound) (i : Fin 16) : (s.advanceSlot i).ownersSound := by
  rcases s.advanceSlot_cases i with ⟨-, h⟩ | ⟨sl, hsl, ⟨-, h⟩ | ⟨-, -, h⟩ | ⟨-, -, h⟩⟩
  · rw [h]
    exact hs
  · rw [h]
    exact hs.finishSlot hsl _ _
  · rw [h]
    exact hs.finishSlot hsl _ _
  · rw [h]
    exact hs.of_same rfl rfl (s.frame.hull_setSlot_index hsl _)

theorem State.ownersSound.softReset {s : State} (hs : s.ownersSound) : s.softReset.ownersSound := by
  have hfreed : (s.frame.active.foldl State.freeSlotSilently s).ownersSound :=
    State.freeAll_keeps State.ownersSound
      (fun t i sl hsl ht => ht.release (some .unknown) hsl rfl rfl rfl fun k => FrameEngine.slots_setSlot _ _ _ _) hs
  exact hfreed.congr rfl rfl rfl (fun _ _ _ _ => rfl) fun k => rfl

/-- The slots that an abort of a list has freed. -/
theorem State.slots_foldl_abortSlot (is : List (Fin 16)) (s : State) (k : Fin 16) :
    (is.foldl State.abortSlot s).frame.slots[k] = if k ∈ is then none else s.frame.slots[k] := by
  induction is generalizing s with
  | nil => simp
  | cons i is ih =>
    have hone : (s.abortSlot i).frame.slots[k] = if k = i then none else s.frame.slots[k] := by
      rcases s.abortSlot_cases i with ⟨hnone, h⟩ | ⟨sl, -, h⟩
      · rw [h]
        split
        next hk =>
          subst hk
          exact hnone
        next => rfl
      · have hset : (s.frame.setSlot i none).slots[k] = if k = i then none else s.frame.slots[k] := by
          rw [FrameEngine.slots_setSlot]
          simp only [eq_comm]
        rw [h, State.finishSlot_frame]
        exact hset
    rw [List.foldl_cons, ih, hone]
    by_cases hk : k = i <;> simp only [hk, List.mem_cons, true_or, false_or, if_true, if_false, ite_self]

/-- A loss of the supply frees every slot (R110). -/
theorem State.aborted_slots {s : State} (hs : s.frame.listSound) (k : Fin 16) : s.aborted.frame.slots[k] = none := by
  change (s.frame.admissions.foldl State.abortSlot _).frame.slots[k] = none
  rw [State.slots_foldl_abortSlot]
  split
  · rfl
  next hnot => exact (FrameEngine.not_isActive_iff _ _).1 fun ha => hnot ((hs.2 k).2 ha)

theorem State.supplyLoss_slots {s : State} (hs : s.frame.listSound) (k : Fin 16) : s.supplyLoss.frame.slots[k] = none := by
  have := State.aborted_slots hs k
  rw [State.supplyLoss_frame]
  exact this

/-! ### Owners through every step -/

theorem State.tile_map_owner {s t : State} (f : TileRecord → TileRecord) (hf : ∀ r, (f r).owner = r.owner)
    (hfresh : f .fresh = .fresh) (htiles : t.ghost.tiles = s.ghost.tiles.map f) (hcols : t.pixel.tileCols = s.pixel.tileCols)
    (i j : Nat) : (t.tile i j).owner = (s.tile i j).owner := by
  rw [State.tile, State.tile, htiles, hcols, ← hfresh, List.getD_map, hf, hfresh]

theorem TileRecord.tick_owner (r : TileRecord) : r.tick.owner = r.owner := by
  unfold TileRecord.tick
  split <;> rfl

theorem markTile_owner (action : Nat) (r : TileRecord) : (markTile action r).owner = r.owner := by
  unfold markTile
  split
  · rfl
  · split <;> rfl

/-- Before an admission no tile of the hull is owned (R69). -/
theorem State.hull_unowned {s : State} {n : Nat} {e : PendingEntry} (h : s.admissible n e = true) (x y : Nat)
    (hhas : e.hull.has x y = true) : (s.tile x y).owner = none := by
  simp only [State.admissible, State.hullFree, Bool.and_eq_true, List.all_eq_true] at h
  obtain ⟨⟨⟨-, hhull⟩, -⟩, -⟩ := h
  obtain ⟨hnone, -⟩ := hhull (x, y) ((TileRect.mem_tiles _ _ _).2 hhas)
  simpa using hnone

theorem State.fresh_tile {s : State} {n : Nat} (h : s.ghost.tiles = List.replicate n .fresh) (i j : Nat) :
    s.tile i j = .fresh := by
  rw [State.tile, h, List.getD_eq_getElem?_getD, List.getElem?_replicate]
  split <;> rfl

theorem CoreStep.ownersSound {s u : State} {c : Instr} (h : CoreStep s c u) (hs : s.ownersSound) : u.ownersSound := by
  cases h with
  | powerOnReset => exact ⟨rfl, fun i j k hi hj => by cases hi⟩
  | resetPart => exact hs.softReset
  | panelSetup w h period hoff hquiet hw =>
    obtain ⟨hslots, -⟩ := (State.quiet_iff s).1 hquiet
    refine ⟨List.length_replicate, fun i j k _ _ => ?_⟩
    rw [State.fresh_tile rfl]
    refine ⟨fun h => (by cases h), fun ⟨sl, hsl, _⟩ => ?_⟩
    cases (hslots k).symm.trans hsl
  | tick | tickOn =>
    refine hs.congr (List.length_map _) rfl rfl (fun i j _ _ => ?_) fun _ => rfl
    exact State.tile_map_owner (s := s) (t := s.stepTimers) TileRecord.tick TileRecord.tick_owner rfl rfl rfl i j
  | mark r action =>
    refine hs.congr (State.length_mapTiles _ _ _) rfl rfl (fun i j hi hj => ?_) fun _ => rfl
    rw [State.tile_mapTiles _ _ _ _ _ hs.1 hi hj]
    split
    · exact markTile_owner _ _
    · rfl
  | stopAll =>
    refine State.ownersSound.settlePass (hs.of_same rfl rfl fun k => ?_)
    rw [Fin.getElem_fin, Vector.getElem_map, ← Fin.getElem_fin]
    cases s.frame.slots[k] <;> rfl
  | lost =>
    have haborted : (State.aborted { s with rail.pwrGood := false }).ownersSound :=
      foldl_keeps State.ownersSound State.abortSlot _ (fun _ i _ ht => ht.abortSlot i) hs
    exact haborted.of_same (by rw [State.supplyLoss_ghost]) (by rw [State.supplyLoss_pixel])
      fun k => by rw [State.supplyLoss_frame]
  | frameEnd =>
    have hadvanced : s.frameAdvanced.ownersSound :=
      foldl_keeps State.ownersSound State.advanceSlot _ (fun _ i _ ht => ht.advanceSlot i) hs
    exact hadvanced.of_same (by rw [State.installHeld_ghost]) (by rw [State.installHeld_pixel])
      fun k => by rw [State.installHeld_frame]
  | admitted n i e eff esc hrail hphase hentry hgo hfree =>
    obtain ⟨hnone, -⟩ := (FrameEngine.freeSlot_eq_some _ _).1 hfree
    have hfilled := hs.claim (t := s.fillSlot i e eff esc s.temp.band) (sl := s.admittedSlot e eff esc s.temp.band)
      (f := fun x y r => { s.plannedTile e eff s.temp.band x y r with owner := some i }) (fun _ _ _ => rfl) hnone
      (fun x y => State.hull_unowned hgo x y) rfl rfl rfl fun k => FrameEngine.slots_setSlot _ _ _ _
    exact State.ownersSound.settlePass (hfilled.of_same rfl rfl fun _ => rfl)
  | cancel | frameStart | passed | waits | refused =>
    exact State.ownersSound.settlePass (hs.of_same rfl rfl fun _ => rfl)
  | _ => exact hs.of_same rfl rfl fun _ => rfl

/-! ### The admission list through every step -/

theorem FrameEngine.listSound.finishSlot {s : State} (hs : s.frame.listSound) (i : Fin 16) (sl : Slot) (o : UpdateOutcome)
    (n : Nat) : (s.finishSlot i sl o n).frame.listSound := by
  rw [State.finishSlot_frame]
  exact hs.free i

theorem FrameEngine.listSound.abortSlot {s : State} (hs : s.frame.listSound) (i : Fin 16) :
    (s.abortSlot i).frame.listSound := by
  rcases s.abortSlot_cases i with ⟨-, h⟩ | ⟨sl, -, h⟩
  · rw [h]
    exact hs
  · rw [h]
    exact hs.finishSlot _ _ _ _

theorem FrameEngine.listSound.advanceSlot {s : State} (hs : s.frame.listSound) (i : Fin 16) :
    (s.advanceSlot i).frame.listSound := by
  rcases s.advanceSlot_cases i with ⟨-, h⟩ | ⟨sl, hsl, ⟨-, h⟩ | ⟨-, -, h⟩ | ⟨-, -, h⟩⟩
  · rw [h]
    exact hs
  · rw [h]
    exact hs.finishSlot _ _ _ _
  · rw [h]
    exact hs.finishSlot _ _ _ _
  · rw [h]
    refine hs.congr rfl fun j => (FrameEngine.isActive_setSlot_some _ _ _ _).trans ⟨fun hj => hj.elim ?_ id, .inr⟩
    rintro rfl
    exact Option.isSome_iff_exists.2 ⟨sl, hsl⟩

theorem FrameEngine.listSound.settlePass {s : State} (hs : s.frame.listSound) : s.settlePass.frame.listSound :=
  hs.congr (State.settlePass_admissions s) fun i => by
    unfold FrameEngine.isActive
    rw [State.settlePass_slots]

theorem CoreStep.listSound {s u : State} {c : Instr} (h : CoreStep s c u) (hs : s.frame.listSound) : u.frame.listSound := by
  cases h with
  | powerOnReset => exact .of_empty rfl State.reset_slots
  | resetPart => exact .of_empty rfl s.softReset_slots
  | stopAll =>
    exact FrameEngine.listSound.settlePass (hs.congr rfl s.frame.isActive_map_stop)
  | lost =>
    have haborted : (State.aborted { s with rail.pwrGood := false }).frame.listSound :=
      foldl_keeps (fun t => t.frame.listSound) State.abortSlot _ (fun _ i _ ht => ht.abortSlot i) hs
    rw [State.supplyLoss_frame]
    exact haborted
  | frameEnd =>
    rw [State.installHeld_frame]
    exact foldl_keeps (fun t => t.frame.listSound) State.advanceSlot _ (fun _ i _ ht => ht.advanceSlot i) hs
  | admitted n i e eff esc hrail hphase hentry hgo hfree =>
    obtain ⟨hnone, -⟩ := (FrameEngine.freeSlot_eq_some _ _).1 hfree
    exact FrameEngine.listSound.settlePass (hs.fill hnone _)
  | cancel | frameStart | passed | waits | refused =>
    exact FrameEngine.listSound.settlePass (hs.congr rfl fun _ => Iff.rfl)
  | _ => exact hs.congr rfl fun _ => Iff.rfl

/-! ### The rails through every step -/

theorem State.railsSound.settlePass {s : State} (hs : s.railsSound) : s.settlePass.railsSound := by
  rcases s.settlePass_cases with h | ⟨n, hphase, -, h⟩
  · rw [h]
    exact hs
  · obtain ⟨hactive, hon, -⟩ := hs
    rw [h]
    unfold State.concludeStart
    dsimp only
    split
    next hidle =>
      obtain ⟨hslots, -⟩ := (State.quiet_iff s).1 hidle.1
      exact ⟨fun _ i => (FrameEngine.not_isActive_iff _ _).2 (hslots i), ⟨fun h => (by cases h), fun h => absurd rfl h⟩,
        fun h => (by cases h)⟩
    next =>
      have hrail : s.rail.state = .on := hon.2 (by rw [hphase]; simp)
      exact ⟨fun h => absurd hrail h, ⟨fun _ => (by simp), fun _ => hrail⟩, fun _ => rfl⟩

/-- The rails agree where no slot is active, frame timing is stopped and the state is not ON. -/
theorem State.railsSound.of_stopped {s : State} (hrail : s.rail.state ≠ .on) (hslots : ∀ i : Fin 16, s.frame.slots[i] = none)
    (hphase : s.frame.phase = .stopped) (hdrive : s.frame.driveActive = false) : s.railsSound :=
  ⟨fun _ i => (FrameEngine.not_isActive_iff _ _).2 (hslots i), ⟨fun h => absurd h hrail, fun h => absurd hphase h⟩,
    fun h => (by rw [hdrive] at h; cases h)⟩

/-- The rails agree in ON while frame timing runs and nothing is driven. -/
theorem State.railsSound.of_on {s : State} (hrail : s.rail.state = .on) (hphase : s.frame.phase ≠ .stopped)
    (hdrive : s.frame.driveActive = true → s.frame.phase = .driven) : s.railsSound :=
  ⟨fun h => absurd hrail h, ⟨fun _ => hphase, fun _ => hrail⟩, hdrive⟩

/-- Outside ON nothing is active, timed or driven. -/
theorem State.railsSound.off {s : State} (hs : s.railsSound) (hrail : s.rail.state ≠ .on) :
    (∀ i : Fin 16, s.frame.slots[i] = none) ∧ s.frame.phase = .stopped ∧ s.frame.driveActive = false := by
  obtain ⟨hactive, hon, hdrive⟩ := hs
  have hphase : s.frame.phase = .stopped := by
    by_contra h
    exact hrail (hon.2 h)
  refine ⟨fun i => (FrameEngine.not_isActive_iff _ _).1 (hactive hrail i), hphase, ?_⟩
  by_contra h
  cases (hdrive (by simpa using h)).symm.trans hphase

/-- In ON frame timing runs. -/
theorem State.railsSound.on {s : State} (hs : s.railsSound) (hrail : s.rail.state = .on) :
    s.frame.phase ≠ .stopped ∧ (s.frame.driveActive = true → s.frame.phase = .driven) := by
  obtain ⟨-, hon, hdrive⟩ := hs
  exact ⟨hon.1 hrail, hdrive⟩

/-- Nothing is driven while an admission pass runs. -/
theorem State.railsSound.drive_of_pass {s : State} (hs : s.railsSound) {n : Nat} (hphase : s.frame.phase = .pass n) :
    ¬ s.frame.driveActive = true := by
  obtain ⟨-, -, hdrive⟩ := hs
  intro h
  cases hphase.symm.trans (hdrive h)

/-- A change of the rails outside ON. -/
theorem State.railsSound.move {s t : State} (hs : s.railsSound) (hrail : s.rail.state ≠ .on) (htrail : t.rail.state ≠ .on)
    (hframe : t.frame = s.frame) : t.railsSound := by
  obtain ⟨hslots, hphase, hdrive⟩ := hs.off hrail
  rw [← hframe] at hslots hphase hdrive
  exact .of_stopped htrail hslots hphase hdrive

/-- The rails stay in agreement where the rail state, the active slots and the kind of the frame phase stay. -/
theorem State.railsSound.congr {s t : State} (hs : s.railsSound) (hrail : t.rail.state = s.rail.state)
    (hactive : ∀ i, t.frame.isActive i ↔ s.frame.isActive i) (hstopped : t.frame.phase = .stopped ↔ s.frame.phase = .stopped)
    (hdriven : t.frame.phase = .driven ↔ s.frame.phase = .driven) (hdrive : t.frame.driveActive = s.frame.driveActive) :
    t.railsSound := by
  obtain ⟨hidle, hon, hline⟩ := hs
  refine ⟨fun h i => (hactive i).not.2 (hidle (hrail ▸ h) i), ?_, fun h => hdriven.2 (hline (hdrive ▸ h))⟩
  rw [hrail, hon]
  exact hstopped.not.symm

/-- Slots that advance write of the Frame Engine the slot table and the admission list alone. -/
theorem State.advanceSlot_frame (s : State) (i : Fin 16) :
    ∃ slots list, (s.advanceSlot i).frame = { s.frame with slots := slots, admissions := list } := by
  rcases s.advanceSlot_cases i with ⟨-, h⟩ | ⟨sl, -, ⟨-, h⟩ | ⟨-, -, h⟩ | ⟨-, -, h⟩⟩
  · exact ⟨_, _, by rw [h]⟩
  · exact ⟨_, _, by rw [h, State.finishSlot_frame]; rfl⟩
  · exact ⟨_, _, by rw [h, State.finishSlot_frame]; rfl⟩
  · exact ⟨_, _, by rw [h]; rfl⟩

theorem State.frameAdvanced_frame (s : State) : ∃ slots list, s.frameAdvanced.frame =
    { s.frame with slots := slots, admissions := list, phase := .between, driveActive := false } := by
  refine foldl_keeps (fun t => ∃ slots list, t.frame =
    { s.frame with slots := slots, admissions := list, phase := .between, driveActive := false }) State.advanceSlot _
    (fun t i _ ht => ?_) ⟨_, _, rfl⟩
  obtain ⟨slots, list, h⟩ := ht
  obtain ⟨slots', list', h'⟩ := t.advanceSlot_frame i
  exact ⟨slots', list', by rw [h', h]⟩

theorem CoreStep.railsSound {s u : State} {c : Instr} (h : CoreStep s c u) (hlist : s.frame.listSound) (hs : s.railsSound) :
    u.railsSound := by
  cases h with
  | powerOnReset => exact .of_stopped (by simp [RailController.reset]) State.reset_slots rfl rfl
  | resetPart =>
    have hrail : s.softReset.rail = s.rail.softReset := by simp [State.softReset]
    refine .of_stopped ?_ s.softReset_slots rfl rfl
    rw [hrail, RailController.softReset]
    dsimp only
    split <;> simp
  | tick =>
    by_cases hon : s.rail.state = .on
    · obtain ⟨hphase, hdrive⟩ := hs.on hon
      refine .of_on ?_ hphase hdrive
      change s.rail.state.tick = .on
      rw [hon]
      rfl
    · refine hs.move hon ?_ rfl
      change s.rail.state.tick ≠ .on
      cases h : s.rail.state <;> simp_all [RailState.tick]
  | tickOn n hrail | pwrGoodOn n hrail =>
    obtain ⟨-, -, hdrive⟩ := hs.off (by rw [hrail]; simp)
    exact .of_on rfl (by simp [State.enterOn]) fun h => absurd (hdrive.symm.trans h) (by simp)
  | queuedRising e hkept hroom hoff => exact hs.move (by rw [hoff]; simp) (by simp [State.enterRising]) rfl
  | resume cause hrail =>
    obtain ⟨hslots, -, -⟩ := hs.off (by rw [hrail]; simp)
    exact .of_stopped (by simp [State.enterFalling]) hslots rfl rfl
  | rampFault hrail => exact hs.move (by rw [hrail]; simp) (by simp) rfl
  | discharged hrail => exact hs.move (by rw [hrail]; simp) (by simp) rfl
  | dischargedRising hrail => exact hs.move (by rw [hrail]; simp) (by simp [State.enterRising]) rfl
  | lost hrail =>
    refine .of_stopped ?_ (State.supplyLoss_slots hlist) ?_ ?_
    · rw [State.supplyLoss_rail]
      simp
    · rw [State.supplyLoss_frame]
      rfl
    · rw [State.supplyLoss_frame]
      rfl
  | frameEnd hrail hphase =>
    obtain ⟨slots, list, hframe⟩ := s.frameAdvanced_frame
    have hon : s.frameAdvanced.rail = s.rail := by rw [State.frameAdvanced, State.foldl_advanceSlot_rail]
    refine .of_on ?_ ?_ ?_
    · rw [State.installHeld_rail, hon, hrail]
    · rw [State.installHeld_frame, hframe]
      simp
    · rw [State.installHeld_frame, hframe]
      simp
  | cancel gone =>
    refine State.railsSound.settlePass (hs.congr rfl (fun _ => Iff.rfl) ?_ ?_ rfl)
    · cases h : s.frame.phase <;> simp [FramePhase.without]
    · cases h : s.frame.phase <;> simp [FramePhase.without]
  | stopAll =>
    refine State.railsSound.settlePass (hs.congr rfl s.frame.isActive_map_stop ?_ ?_ rfl)
    · cases h : s.frame.phase <;> simp [FramePhase.passAt]
    · cases h : s.frame.phase <;> simp [FramePhase.passAt]
  | frameStart hrail hphase =>
    obtain ⟨-, hdrive⟩ := hs.on hrail
    exact State.railsSound.settlePass (.of_on hrail (by simp) fun h => absurd (hphase.symm.trans (hdrive h)) (by simp))
  | passed => exact hs.settlePass
  | refused n hrail hphase => exact State.railsSound.settlePass (hs.congr rfl (fun _ => Iff.rfl) Iff.rfl Iff.rfl rfl)
  | waits n hrail hphase =>
    exact State.railsSound.settlePass (.of_on hrail (by simp [State.holdEntry]) fun h => absurd h (hs.drive_of_pass hphase))
  | admitted n i e eff esc hrail hphase =>
    obtain ⟨hrun, -⟩ := hs.on hrail
    exact State.railsSound.settlePass (.of_on hrail hrun fun h => absurd h (hs.drive_of_pass hphase))
  | _ => exact hs

/-- Settles O53: each part of the ledger is kept by every step. -/
theorem ledgerStaysSound : Obligations.LedgerStaysSound := fun _ _ _ hs ht =>
  exec_keeps State.ledgerSound (fun _ => Iff.rfl)
    (fun _ _ _ hstep ⟨hlist, howners, hrects, hrails⟩ =>
      ⟨hstep.listSound hlist, hstep.ownersSound howners, hstep.rectsSound hrects, hstep.railsSound hlist hrails⟩) hs ht

end Sys2Proof.Machine
end

section
/-! PROOF. Chapter 2: the set image and its checks (R25, R30), the set formed from it (R31), and the sets through every
command (R22, R32, R34). -/

namespace Sys2Proof.Machine

/-! ### The codes of the image -/

theorem WaveformStore.rawCode_toNat (w : WaveformStore) (L k i : Nat) : (w.rawCode L k i).toNat =
    (w.stagingByte (260 + k * ((L + 3) / 4) + i / 4)).toNat / 4 ^ (3 - i % 4) % 4 := by
  have hshift : 2 ^ (6 - 2 * (i % 4)) = 4 ^ (3 - i % 4) := by
    rw [show 6 - 2 * (i % 4) = 2 * (3 - i % 4) by omega, pow_mul]
    norm_num
  rw [WaveformStore.rawCode, BitVec.extractLsb'_toNat, Nat.shiftRight_eq_div_pow, hshift]
  rfl

/-- The two bits that are no drive code (R21). -/
theorem WaveformStore.rawCode_eq_three (w : WaveformStore) (L k i : Nat) : w.rawCode L k i = 3#2 ↔
    (w.stagingByte (260 + k * ((L + 3) / 4) + i / 4)).toNat / 4 ^ (3 - i % 4) % 4 = 3 := by
  rw [← WaveformStore.rawCode_toNat, ← BitVec.toNat_inj]
  rfl

theorem DriveCode.ofBits_eq_match (c : BitVec 2) : DriveCode.ofBits c = match c.toNat with
    | 0 => some .rest
    | 1 => some .darken
    | 2 => some .lighten
    | _ => none := by
  revert c
  decide

theorem DriveCode.ofBits_eq_none (c : BitVec 2) : DriveCode.ofBits c = none ↔ c = 3#2 := by
  revert c
  decide

theorem WaveformStore.stagedCode_eq (w : WaveformStore) (k i : Nat) :
    w.stagedCode k i = DriveCode.ofBits (w.rawCode (w.stagingByte 2).toNat k i) := by
  rw [DriveCode.ofBits_eq_match, WaveformStore.rawCode_toNat]
  rfl

/-! ### The first fault of the table and of the codes -/

theorem WaveformStore.length_imageTable (w : WaveformStore) : w.imageTable.length = 256 := by
  simp [WaveformStore.imageTable]

theorem WaveformStore.getElem_imageTable (w : WaveformStore) (i : Nat) (hi : i < w.imageTable.length) :
    w.imageTable[i] = (w.stagingByte (4 + i)).toNat := by
  simp [WaveformStore.imageTable]

theorem WaveformStore.tableFault_eq_none (w : WaveformStore) (S : Nat) : w.imageTable.findIdx? (fun e => S ≤ e) = none ↔
    ∀ i, i < 256 → (w.stagingByte (4 + i)).toNat < S := by
  rw [List.findIdx?_eq_none_iff]
  constructor
  · intro h i hi
    have hmem : (w.stagingByte (4 + i)).toNat ∈ w.imageTable :=
      List.mem_map.2 ⟨i, List.mem_range.2 hi, rfl⟩
    simpa using h _ hmem
  · intro h e he
    obtain ⟨i, hi, rfl⟩ := List.mem_map.1 he
    simpa using h i (List.mem_range.1 hi)

theorem WaveformStore.tableFault_eq_some (w : WaveformStore) (S i : Nat) (hi : i < 256)
    (hfault : S ≤ (w.stagingByte (4 + i)).toNat) (hfirst : ∀ j, j < i → (w.stagingByte (4 + j)).toNat < S) :
    w.imageTable.findIdx? (fun e => S ≤ e) = some i := by
  rw [List.findIdx?_eq_some_iff_getElem]
  refine ⟨by rw [w.length_imageTable]; exact hi, ?_, fun j hj => ?_⟩
  · rw [w.getElem_imageTable]
    exact decide_eq_true hfault
  · rw [w.getElem_imageTable]
    simpa using hfirst j hj

/-- The places of the codes in the order of the image: sequence by sequence, frame by frame. -/
def codePlaces (L S : Nat) : List (Nat × Nat) := (List.range S).flatMap fun k => (List.range L).map fun i => (k, i)

theorem mem_codePlaces (L S k i : Nat) : (k, i) ∈ codePlaces L S ↔ k < S ∧ i < L := by
  simp [codePlaces]

/-- The order of the image is that of the positions, as a sequence has at most 128 frames. -/
theorem codePlaces_sorted (L S : Nat) (hL : L ≤ 128) :
    (codePlaces L S).Pairwise fun p q => 128 * p.1 + p.2 < 128 * q.1 + q.2 := by
  refine List.pairwise_flatMap.2 ⟨fun k _ => ?_, List.pairwise_lt_range.imp fun {k l} hkl p hp q hq => ?_⟩
  · refine List.pairwise_map.2 (List.pairwise_lt_range.imp fun {i j} hij => ?_)
    simp only
    omega
  · obtain ⟨i, hi, rfl⟩ := List.mem_map.1 hp
    obtain ⟨j, -, rfl⟩ := List.mem_map.1 hq
    have := List.mem_range.1 hi
    simp only
    omega

theorem WaveformStore.badCode_eq_none (w : WaveformStore) (L S : Nat) :
    w.badCode L S = none ↔ ∀ k i, k < S → i < L → w.rawCode L k i ≠ 3#2 := by
  change (codePlaces L S).findSome? _ = none ↔ _
  rw [List.findSome?_eq_none_iff]
  constructor
  · intro h k i hk hi
    simpa using h (k, i) ((mem_codePlaces L S k i).2 ⟨hk, hi⟩)
  · rintro h ⟨k, i⟩ hmem
    obtain ⟨hk, hi⟩ := (mem_codePlaces L S k i).1 hmem
    simpa using h k i hk hi

/-- The head of a rising list is its least element. -/
theorem head?_of_sorted {l : List Nat} (hl : l.Pairwise (· < ·)) {a : Nat} (ha : a ∈ l) (hleast : ∀ b ∈ l, a ≤ b) :
    l.head? = some a := by
  cases l with
  | nil => cases ha
  | cons b l =>
    rcases List.mem_cons.1 ha with rfl | hmem
    · rfl
    · exact absurd (hleast b List.mem_cons_self) (Nat.not_le.2 ((List.pairwise_cons.1 hl).1 a hmem))

theorem WaveformStore.badCode_eq_some (w : WaveformStore) {L S k i : Nat} (hL : L ≤ 128) (hk : k < S) (hi : i < L)
    (hbad : w.rawCode L k i = 3#2)
    (hleast : ∀ k' i', k' < S → i' < L → w.rawCode L k' i' = 3#2 → 128 * k + i ≤ 128 * k' + i') :
    w.badCode L S = some (128 * k + i) := by
  change (codePlaces L S).findSome? _ = _
  rw [← List.head?_filterMap]
  refine head?_of_sorted ?_ ?_ fun b hb => ?_
  · refine List.pairwise_filterMap.2 ((codePlaces_sorted L S hL).imp fun {p q} hpq a ha b hb => ?_)
    split at ha <;> cases ha
    split at hb <;> cases hb
    exact hpq
  · exact List.mem_filterMap.2 ⟨(k, i), (mem_codePlaces L S k i).2 ⟨hk, hi⟩, by simp [hbad]⟩
  · obtain ⟨⟨k', i'⟩, hmem, hpos⟩ := List.mem_filterMap.1 hb
    obtain ⟨hk', hi'⟩ := (mem_codePlaces L S k' i').1 hmem
    split at hpos
    next hbad' =>
      cases hpos
      exact hleast k' i' hk' hi' hbad'
    next => cases hpos

/-! ### The checks of the image -/

/-- What a set image must hold to pass the checks of R30. -/
structure WaveformStore.Passes (w : WaveformStore) (m : Mode) (b : Fin 8) (n : Nat) : Prop where
  mode : (w.stagingByte 0).toNat = m.code
  band : (w.stagingByte 1).toNat = b.val
  minLength : 1 ≤ (w.stagingByte 2).toNat
  maxLength : (w.stagingByte 2).toNat ≤ 120
  minCount : 1 ≤ (w.stagingByte 3).toNat
  maxCount : (w.stagingByte 3).toNat ≤ 64
  size : n = 260 + (w.stagingByte 3).toNat * (((w.stagingByte 2).toNat + 3) / 4)
  table : ∀ i, i < 256 → (w.stagingByte (4 + i)).toNat < (w.stagingByte 3).toNat
  codes : ∀ k i, k < (w.stagingByte 3).toNat → i < (w.stagingByte 2).toNat →
    w.rawCode (w.stagingByte 2).toNat k i ≠ 3#2

/-- Past the header the fault is that of the table, and past the table that of the codes. -/
theorem WaveformStore.imageFault_of_header {w : WaveformStore} {m : Mode} {b : Fin 8} {n : Nat}
    (hmode : (w.stagingByte 0).toNat = m.code) (hband : (w.stagingByte 1).toNat = b.val)
    (hL : 1 ≤ (w.stagingByte 2).toNat ∧ (w.stagingByte 2).toNat ≤ 120)
    (hS : 1 ≤ (w.stagingByte 3).toNat ∧ (w.stagingByte 3).toNat ≤ 64)
    (hn : n = 260 + (w.stagingByte 3).toNat * (((w.stagingByte 2).toNat + 3) / 4)) :
    w.imageFault m b n =
      ((w.imageTable.findIdx? fun e => (w.stagingByte 3).toNat ≤ e).map fun i => (6, i)).or
        ((w.badCode (w.stagingByte 2).toNat (w.stagingByte 3).toNat).map fun pos => (7, pos)) := by
  unfold WaveformStore.imageFault
  dsimp only
  rw [if_neg (by omega), if_neg (by simp [hmode]), if_neg (by simp [hband]), if_neg (by omega), if_neg (by omega),
    if_neg (by simp [hn, sequenceBytes])]
  cases w.imageTable.findIdx? fun e => (w.stagingByte 3).toNat ≤ e <;> rfl

theorem WaveformStore.imageFault_eq_none_iff (w : WaveformStore) (m : Mode) (b : Fin 8) (n : Nat) :
    w.imageFault m b n = none ↔ w.Passes m b n := by
  constructor
  · intro h
    unfold WaveformStore.imageFault at h
    dsimp only at h
    split at h
    · cases h
    split at h
    · cases h
    next hmode =>
    split at h
    · cases h
    next hband =>
    split at h
    · cases h
    next hL =>
    split at h
    · cases h
    next hS =>
    split at h
    · cases h
    next hn =>
    split at h
    · cases h
    next htable =>
    rw [Option.map_eq_none_iff] at h
    exact ⟨not_not.1 hmode, not_not.1 hband, by omega, by omega, by omega, by omega, not_not.1 hn,
      (w.tableFault_eq_none _).1 htable, (w.badCode_eq_none _ _).1 h⟩
  · intro h
    rw [WaveformStore.imageFault_of_header h.mode h.band ⟨h.minLength, h.maxLength⟩ ⟨h.minCount, h.maxCount⟩ h.size,
      (w.tableFault_eq_none _).2 h.table, (w.badCode_eq_none _ _).2 h.codes]
    rfl

/-- Settles O30, check by check in the order of TABLE 2-3. -/
theorem imageChecked : Obligations.ImageChecked := by
  intro w m b n
  dsimp only
  refine ⟨?_, fun hn => ?_, fun hn hmode => ?_, fun hn hmode hband => ?_, fun hn hmode hband => ⟨fun hL => ?_,
    fun hL hL' => ⟨fun hS => ?_, fun hS hS' => ⟨fun hsize => ?_, fun hsize => ⟨fun i hi hfault hfirst => ?_,
    fun htable k i hk hi hbad hleast => ?_⟩⟩⟩⟩⟩
  · rw [WaveformStore.imageFault_eq_none_iff]
    have hcode (k i : Nat) := (w.rawCode_eq_three (w.stagingByte 2).toNat k i).not
    constructor
    · intro h
      exact ⟨h.mode, h.band, h.minLength, h.maxLength, h.minCount, h.maxCount, h.size, h.table,
        fun k i hk hi => (hcode k i).1 (h.codes k i hk hi)⟩
    · rintro ⟨hmode, hband, hL, hL', hS, hS', hsize, htable, hcodes⟩
      exact ⟨hmode, hband, hL, hL', hS, hS', hsize, htable, fun k i hk hi => (hcode k i).2 (hcodes k i hk hi)⟩
  · unfold WaveformStore.imageFault
    exact if_pos hn
  · unfold WaveformStore.imageFault
    dsimp only
    rw [if_neg (by omega), if_pos hmode]
  · unfold WaveformStore.imageFault
    dsimp only
    rw [if_neg (by omega), if_neg (not_not.2 hmode), if_pos hband]
  · unfold WaveformStore.imageFault
    dsimp only
    rw [if_neg (by omega), if_neg (not_not.2 hmode), if_neg (not_not.2 hband), if_pos hL]
  · unfold WaveformStore.imageFault
    dsimp only
    rw [if_neg (by omega), if_neg (not_not.2 hmode), if_neg (not_not.2 hband), if_neg (by omega), if_pos hS]
  · unfold WaveformStore.imageFault
    dsimp only
    rw [if_neg (by omega), if_neg (not_not.2 hmode), if_neg (not_not.2 hband), if_neg (by omega), if_neg (by omega),
      if_pos (by simpa [sequenceBytes] using hsize)]
    rfl
  · rw [WaveformStore.imageFault_of_header hmode hband ⟨hL, hL'⟩ ⟨hS, hS'⟩ hsize,
      w.tableFault_eq_some _ i hi hfault hfirst]
    rfl
  · rw [WaveformStore.imageFault_of_header hmode hband ⟨hL, hL'⟩ ⟨hS, hS'⟩ hsize, (w.tableFault_eq_none _).2 htable,
      w.badCode_eq_some (by omega) hk hi ((w.rawCode_eq_three _ k i).2 hbad)
        fun k' i' hk' hi' hbad' => hleast k' i' hk' hi' ((w.rawCode_eq_three _ k' i').1 hbad')]
    rfl

/-! ### The set of the image -/

theorem WaveformStore.length_imageSequences (w : WaveformStore) (L S : Nat) : (w.imageSequences L S).length = S := by
  simp [WaveformStore.imageSequences]

theorem WaveformStore.getElem?_imageSequences (w : WaveformStore) {L S k : Nat} (hk : k < S) :
    (w.imageSequences L S)[k]? = some ((List.range L).map fun i => (DriveCode.ofBits (w.rawCode L k i)).getD .rest) := by
  simp [WaveformStore.imageSequences, hk]

/-- A set formed from an image that passes the checks holds what R22 and R31 ask. -/
theorem WaveformStore.imageSet_sound {w : WaveformStore} {m : Mode} {b : Fin 8} {n : Nat} (h : w.Passes m b n)
    (crc : BitVec 16) : (w.imageSet w.imageCharges crc).sound := by
  have hcount : (w.imageSet w.imageCharges crc).sequences.length = (w.stagingByte 3).toNat := w.length_imageSequences _ _
  refine ⟨h.minLength, h.maxLength, ?_, ?_, w.length_imageTable, fun e he => ?_, fun q hq => ?_, rfl⟩
  · rw [hcount]
    exact h.minCount
  · rw [hcount]
    exact h.maxCount
  · obtain ⟨i, hi, rfl⟩ := List.mem_map.1 he
    rw [hcount]
    exact h.table i (List.mem_range.1 hi)
  · obtain ⟨k, -, rfl⟩ := List.mem_map.1 hq
    simp [WaveformStore.imageSet]

theorem WaveformStore.sequenceOf_imageSet (w : WaveformStore) (charges : List Int) (crc : BitVec 16) (f t : Level) :
    (w.imageSet charges crc).sequenceOf f t = (w.stagingByte (4 + 16 * f.toNat + t.toNat)).toNat := by
  have hplace : 16 * f.toNat + t.toNat < w.imageTable.length := by
    rw [w.length_imageTable]
    omega
  change w.imageTable.getD (16 * f.toNat + t.toNat) 0 = _
  rw [List.getD_eq_getElem _ _ hplace, w.getElem_imageTable, Nat.add_assoc]

/-- The codes of the set are those of the image, as none of them is the fourth code (R21, R25). -/
theorem WaveformStore.imageSet_isStaged {w : WaveformStore} {m : Mode} {b : Fin 8} {n : Nat} (h : w.Passes m b n)
    (charges : List Int) (crc : BitVec 16) : (w.imageSet charges crc).isStaged w := by
  refine ⟨rfl, w.length_imageSequences _ _, w.sequenceOf_imageSet charges crc, fun k i hk hi => ?_⟩
  have hcount : (w.imageSet charges crc).sequences.length = (w.stagingByte 3).toNat := w.length_imageSequences _ _
  rw [hcount] at hk
  replace hi : i < (w.stagingByte 2).toNat := hi
  have hseq : (w.imageSet charges crc).sequences[k]? = _ := w.getElem?_imageSequences hk
  have hcode : DriveCode.ofBits (w.rawCode (w.stagingByte 2).toNat k i) ≠ none :=
    (DriveCode.ofBits_eq_none _).not.2 (h.codes k i hk hi)
  obtain ⟨code, hc⟩ := Option.ne_none_iff_exists'.1 hcode
  rw [hseq, w.stagedCode_eq, Option.bind_some, List.getElem?_map, List.getElem?_range hi, Option.map_some, hc,
    Option.getD_some]

theorem WaveformStore.code_imageSet {w : WaveformStore} {m : Mode} {b : Fin 8} {n : Nat} (h : w.Passes m b n)
    (charges : List Int) (crc : BitVec 16) (f t : Level) (i : Nat) (hi : i < (w.stagingByte 2).toNat) :
    some ((w.imageSet charges crc).code f t i) =
      w.stagedCode (w.stagingByte (4 + 16 * f.toNat + t.toNat)).toNat i := by
  obtain ⟨-, hcount, hseq, hcode⟩ := w.imageSet_isStaged h charges crc
  have hk : (w.stagingByte (4 + 16 * f.toNat + t.toNat)).toNat < (w.stagingByte 3).toNat := by
    have := h.table (16 * f.toNat + t.toNat) (by omega)
    rwa [← Nat.add_assoc] at this
  rw [← hcode _ i (by rw [hcount]; exact hk) hi, WaveformSet.code, hseq]
  have hget : (w.imageSet charges crc).sequences[(w.stagingByte (4 + 16 * f.toNat + t.toNat)).toNat]? = _ :=
    w.getElem?_imageSequences hk
  simp only [List.getD_eq_getElem?_getD, hget, Option.getD_some, Option.bind_some, List.getElem?_map,
    List.getElem?_range hi, Option.map_some]

/-! ### The sets through every step -/

/-- A plan that drives in a mode has the set of the mode (R86, R87). -/
theorem State.plan_drive {s : State} {e : PendingEntry} {b : Fin 8} {eff : Mode} {esc : Bool}
    (h : s.plan e b = .drive eff esc) : ∃ w, s.wave.set? eff b = some w := by
  unfold State.plan at h
  split at h
  · cases h
  next hmode =>
    have hset : ∃ w, s.wave.set? e.mode b = some w := Option.ne_none_iff_exists'.1 (by simpa using hmode)
    split at h
    next hclear =>
      cases h
      rw [← hclear]
      exact hset
    · split at h
      · cases h
        exact hset
      · split at h
        · split at h
          · cases h
          next hclear =>
            cases h
            exact Option.ne_none_iff_exists'.1 (by simpa using hclear)
        · cases h
        · cases h
          exact hset

theorem WaveformStore.heldSound.passes {w : WaveformStore} {h : HeldCommit} (hh : w.heldSound h) :
    w.Passes h.mode h.band h.length := by
  obtain ⟨himage, -, -⟩ := hh
  exact (w.imageFault_eq_none_iff _ _ _).1 himage

theorem WaveformStore.heldSound.charges_eq {w : WaveformStore} {h : HeldCommit} (hh : w.heldSound h) :
    h.charges = w.imageCharges := by
  obtain ⟨-, -, hcharges⟩ := hh
  exact hcharges

theorem WaveformStore.heldSound.congr {w v : WaveformStore} {h : HeldCommit} (hh : w.heldSound h)
    (hstaging : v.staging = w.staging) : v.heldSound h := by
  obtain ⟨hfault, hbytes, hsequences, hbyte⟩ := WaveformStore.image_congr hstaging
  unfold WaveformStore.heldSound at hh ⊢
  rw [hfault, hbytes, hsequences, hbyte]
  exact hh

/-- The sets of the store are sound, and so is the image of a held commit. -/
def WaveformStore.storeSound (w : WaveformStore) : Prop :=
  (∀ m b v, w.set? m b = some v → v.sound) ∧ ∀ h, w.held = some h → w.heldSound h

/-- Every active slot drives a frame of its length (R103). -/
def FrameEngine.indexSound (f : FrameEngine) : Prop :=
  ∀ (i : Fin 16) sl, f.slots[i] = some sl → sl.index < sl.length ∧ sl.length ≤ 120

theorem State.setsSound_iff (s : State) : s.setsSound ↔ s.wave.storeSound ∧ s.frame.indexSound :=
  ⟨fun ⟨hsets, hheld, hindex⟩ => ⟨⟨hsets, hheld⟩, hindex⟩, fun ⟨⟨hsets, hheld⟩, hindex⟩ => ⟨hsets, hheld, hindex⟩⟩

/-- Putting a sound set, or none, into the store. -/
theorem WaveformStore.storeSound.putSet {w : WaveformStore} (hw : w.storeSound) (m : Mode) (b : Fin 8)
    {v : Option WaveformSet} (hv : ∀ x, v = some x → x.sound) : (w.putSet m b v).storeSound := by
  obtain ⟨hsets, hheld⟩ := hw
  refine ⟨fun m' b' x hx => ?_, fun h hh => (hheld h hh).congr rfl⟩
  rw [WaveformStore.set?_putSet] at hx
  split at hx
  · exact hv x hx
  · exact hsets m' b' x hx

theorem WaveformStore.storeSound.installHeld {s : State} (hs : s.wave.storeSound) (freed : List Slot) :
    (s.installHeld freed).wave.storeSound := by
  rcases s.installHeld_cases freed with h | ⟨h, hheld, -, -, hinstalled⟩
  · rw [h]
    exact hs
  · have hh := hs.2 h hheld
    rw [hinstalled, State.raise_wave]
    have hput := hs.putSet h.mode h.band (v := some (s.wave.imageSet h.charges h.crc)) (by
      rintro x ⟨⟩
      rw [hh.charges_eq]
      exact WaveformStore.imageSet_sound hh.passes _)
    exact ⟨hput.1, fun _ hnone => by cases hnone⟩

theorem FrameEngine.indexSound.congr {f g : FrameEngine} (hf : f.indexSound) (h : g.slots = f.slots) : g.indexSound := by
  unfold FrameEngine.indexSound at hf ⊢
  rw [h]
  exact hf

theorem FrameEngine.indexSound.setSlot {f : FrameEngine} (hf : f.indexSound) (i : Fin 16) {v : Option Slot}
    (hv : ∀ sl, v = some sl → sl.index < sl.length ∧ sl.length ≤ 120) : (f.setSlot i v).indexSound := by
  intro j sl hsl
  rw [FrameEngine.slots_setSlot] at hsl
  split at hsl
  · exact hv sl hsl
  · exact hf j sl hsl

theorem FrameEngine.indexSound.of_none {f : FrameEngine} (h : ∀ i : Fin 16, f.slots[i] = none) : f.indexSound := by
  intro i sl hsl
  cases (h i).symm.trans hsl

theorem FrameEngine.indexSound.finishSlot {s : State} (hs : s.frame.indexSound) (i : Fin 16) (sl : Slot) (o : UpdateOutcome)
    (n : Nat) : (s.finishSlot i sl o n).frame.indexSound := by
  rw [State.finishSlot_frame]
  exact (hs.setSlot i (v := none) (by simp)).congr rfl

theorem FrameEngine.indexSound.abortSlot {s : State} (hs : s.frame.indexSound) (i : Fin 16) :
    (s.abortSlot i).frame.indexSound := by
  rcases s.abortSlot_cases i with ⟨-, h⟩ | ⟨sl, -, h⟩
  · rw [h]
    exact hs
  · rw [h]
    exact hs.finishSlot _ _ _ _

theorem FrameEngine.indexSound.advanceSlot {s : State} (hs : s.frame.indexSound) (i : Fin 16) :
    (s.advanceSlot i).frame.indexSound := by
  rcases s.advanceSlot_cases i with ⟨-, h⟩ | ⟨sl, hsl, ⟨-, h⟩ | ⟨-, -, h⟩ | ⟨hlt, -, h⟩⟩
  · rw [h]
    exact hs
  · rw [h]
    exact hs.finishSlot _ _ _ _
  · rw [h]
    exact hs.finishSlot _ _ _ _
  · rw [h]
    refine hs.setSlot i ?_
    rintro v ⟨⟩
    exact ⟨hlt, (hs i sl hsl).2⟩

theorem CoreStep.storeSound {s u : State} {c : Instr} (h : CoreStep s c u) (hs : s.wave.storeSound) :
    u.wave.storeSound := by
  cases h with
  | powerOnReset =>
    refine ⟨fun m b v hv => ?_, fun h hh => by cases hh⟩
    simp [State.reset, WaveformStore.reset, WaveformStore.set?] at hv
  | resetPart =>
    have hwave : s.softReset.wave = { s.wave with staging := [], held := none } := by simp [State.softReset]
    rw [hwave]
    exact ⟨hs.1, fun h hh => by cases hh⟩
  | load offset chunk hheld =>
    exact ⟨hs.1, fun h hh => by cases hheld.symm.trans hh⟩
  | install m b n crc himage =>
    exact hs.putSet m b (by rintro x ⟨⟩; exact WaveformStore.imageSet_sound ((s.wave.imageFault_eq_none_iff _ _ _).1 himage) _)
  | hold h himage => exact ⟨hs.1, by rintro _ ⟨⟩; exact himage.congr rfl⟩
  | erase m b => exact hs.putSet m b (by simp)
  | lost =>
    rw [State.supplyLoss_wave]
    exact WaveformStore.storeSound.installHeld (by rw [State.recover_wave, State.aborted_wave]; exact hs) _
  | frameEnd =>
    exact WaveformStore.storeSound.installHeld (by rw [State.frameAdvanced, State.foldl_advanceSlot_wave]; exact hs) _
  | cancel | stopAll | frameStart | passed | waits | refused | admitted =>
    rw [State.settlePass_wave]
    exact hs
  | _ => exact hs

theorem CoreStep.indexSound {s u : State} {c : Instr} (h : CoreStep s c u) (hstore : s.wave.storeSound)
    (hs : s.frame.indexSound) : u.frame.indexSound := by
  cases h with
  | powerOnReset => exact .of_none State.reset_slots
  | resetPart => exact .of_none s.softReset_slots
  | stopAll =>
    refine FrameEngine.indexSound.congr (fun i sl hsl => ?_) (State.settlePass_slots _)
    rw [Fin.getElem_fin, Vector.getElem_map] at hsl
    obtain ⟨v, hv, rfl⟩ := Option.map_eq_some_iff.1 hsl
    exact hs i v hv
  | lost =>
    have haborted : (State.aborted { s with rail.pwrGood := false }).frame.indexSound :=
      foldl_keeps (fun t => t.frame.indexSound) State.abortSlot _ (fun _ i _ ht => ht.abortSlot i) hs
    rw [State.supplyLoss_frame]
    exact haborted
  | frameEnd =>
    rw [State.installHeld_frame]
    exact foldl_keeps (fun t => t.frame.indexSound) State.advanceSlot _ (fun _ i _ ht => ht.advanceSlot i) hs
  | admitted n i e eff esc hrail hphase hentry hgo hfree hplan =>
    obtain ⟨w, hw⟩ := State.plan_drive hplan
    obtain ⟨hmin, hmax, -⟩ := hstore.1 _ _ w hw
    refine (hs.setSlot i (v := some (s.admittedSlot e eff esc s.temp.band)) ?_).congr (State.settlePass_slots _)
    rintro sl ⟨⟩
    simp only [State.admittedSlot, hw]
    exact ⟨hmin, hmax⟩
  | cancel | frameStart | passed | waits | refused => exact hs.congr (State.settlePass_slots _)
  | _ => exact hs

/-- Settles O33: a set enters the store checked, a held commit keeps its image from being loaded over, and a slot takes
another frame index only below its length. -/
theorem setsStaySound : Obligations.SetsStaySound := fun _ _ _ hs ht =>
  exec_keeps State.setsSound (fun _ => Iff.rfl)
    (fun _ s u hstep hsets => by
      rw [State.setsSound_iff] at hsets ⊢
      exact ⟨hstep.storeSound hsets.1, hstep.indexSound hsets.1 hsets.2⟩) hs ht

/-! ### Sets in use -/

/-- The store of a step keeps the set of every slot active after it (R34, R36). -/
theorem CoreStep.set_in_use {s u : State} {c : Instr} (h : CoreStep s c u) (i : Fin 16) (sl : Slot)
    (hsl : u.frame.slots[i] = some sl) : u.wave.set? sl.effective sl.band = s.wave.set? sl.effective sl.band := by
  have hput (f : FrameEngine) (hf : f.slots[i] = some sl) (w : WaveformStore) (m : Mode) (b : Fin 8) (v : Option WaveformSet)
      (hfree : f.users m b = 0) : (w.putSet m b v).set? sl.effective sl.band = w.set? sl.effective sl.band := by
    rw [WaveformStore.set?_putSet, if_neg]
    rintro ⟨hm, hb⟩
    exact (f.users_ne_zero m b).2 ⟨i, sl, hf, hm, hb⟩ hfree
  have hheld (t : State) (freed : List Slot) (ht : t.frame.slots[i] = some sl) :
      (t.installHeld freed).wave.set? sl.effective sl.band = t.wave.set? sl.effective sl.band := by
    rcases t.installHeld_cases freed with h | ⟨h, -, -, hfree, hinstalled⟩
    · rw [h]
    · rw [hinstalled, State.raise_wave]
      exact hput t.frame ht t.wave h.mode h.band _ hfree
  cases h with
  | powerOnReset => cases (State.reset_slots i).symm.trans hsl
  | resetPart => cases (s.softReset_slots i).symm.trans hsl
  | install m b n crc himage hnone hfree => exact hput s.frame hsl s.wave m b _ hfree
  | erase m b hfree => exact hput s.frame hsl s.wave m b _ hfree
  | lost =>
    rw [State.supplyLoss_frame] at hsl
    rw [State.supplyLoss_wave, hheld _ _ (by rw [State.recover_frame]; exact hsl), State.recover_wave, State.aborted_wave]
  | frameEnd =>
    rw [State.installHeld_frame] at hsl
    rw [hheld _ _ hsl, State.frameAdvanced, State.foldl_advanceSlot_wave]
  | cancel | stopAll | frameStart | passed | waits | refused | admitted =>
    exact congrArg (fun w => w.set? sl.effective sl.band) (State.settlePass_wave _)
  | _ => rfl

/-- Settles O32, from the store that each step leaves. -/
theorem setInUseKept : Obligations.SetInUseKept := fun _ _ _ ht =>
  exec_relates (fun _ s t => ∀ (i : Fin 16) (sl : Slot), t.frame.slots[i] = some sl →
      t.wave.set? sl.effective sl.band = s.wave.set? sl.effective sl.band)
    (fun _ _ _ => Iff.rfl) (fun _ _ _ => CoreStep.set_in_use) ht

end Sys2Proof.Machine
end

section
/-! PROOF. Chapter 2, the requests: what LOAD_WAVEFORM, COMMIT_WAVEFORM and ERASE_WAVEFORM answer, check by check, and what
they write (R27 to R36). -/

namespace Sys2Proof.Machine

/-- The taking of a request whose payload has its fixed length. -/
theorem fixedRequest_of_offers {kind : Byte} {n : Nat} {body : Frame → State → Answer} {s : State} {f : Frame}
    (h : s.offers f) (hk : f.kind = kind) (hn : f.payload.length = n) :
    request kind (fixedLength n body) s = .next (answerFrame f (body f s.released)) := by
  rw [request_of_offers h hk, fixedLength_of_length hn]

/-! ### The staging buffer -/

theorem WaveformStore.stagingByte_load (w : WaveformStore) (offset : Nat) (chunk : List Byte)
    (hw : Memory.wf 0#8 w.staging = true) (a : Nat) : (w.load offset chunk).stagingByte a =
      if offset ≤ a ∧ a < offset + chunk.length then chunk.getD (a - offset) 0#8 else w.stagingByte a := by
  have hplace : a ∈ (List.range chunk.length).map (fun n => offset + n) ↔ offset ≤ a ∧ a < offset + chunk.length := by
    rw [List.mem_map]
    constructor
    · rintro ⟨n, hn, rfl⟩
      have := List.mem_range.1 hn
      omega
    · exact fun h => ⟨a - offset, List.mem_range.2 (by omega), by omega⟩
  rw [WaveformStore.load, WaveformStore.stagingByte, Memory.read_writeEach _ _ _ _ hw]
  simp only [hplace]
  rfl

/-- Settles O27, check by check in the order of R27. -/
theorem waveformLoaded : Obligations.WaveformLoaded := by
  intro s f h hk hm
  have hexec : exec .loadWaveform s = .next (answerFrame f (loadWaveformBody f s.released)) :=
    request_of_offers (kind := Kind.loadWaveform) h hk
  have hmax : Config.maxData = 4096 := rfl
  have hbytes : Config.stagingBytes = 16384 := rfl
  dsimp only
  rw [hexec]
  simp only [loadWaveformBody, State.released_wave, Option.isSome_iff_ne_none]
  refine ⟨fun hlen => ?_, fun h2 hlen hheld => ?_, fun h2 hlen hheld hend => ?_, fun h2 hlen hheld hend => ?_⟩
  · rcases hlen with hlen | hlen
    · rw [if_pos hlen, answerFrame_refuse]
    · rw [if_pos (show Config.maxData < (f.payload.drop 2).length by omega), ite_self, answerFrame_refuse]
  · rw [if_neg (by omega), if_neg (by omega), if_pos hheld, answerFrame_refuse]
  · rw [if_neg (by omega), if_neg (by omega), if_neg (not_not.2 hheld), if_pos (hbytes ▸ hend), answerFrame_refuse]
  · rw [if_neg (by omega), if_neg (by omega), if_neg (not_not.2 hheld), if_neg (by omega)]
    exact ⟨_, rfl, rfl, Memory.wf_writeEach _ _ _ _ hm.2.2.2, s.wave.stagingByte_load _ _ hm.2.2.2⟩

/-! ### The CRC -/

theorem crcShift_eq (r : BitVec 16) :
    crcShift r = if r.getLsbD 15 = true then (r <<< 1) ^^^ 0x1021#16 else r <<< 1 := by
  rw [crcShift, BitVec.msb_eq_getLsbD_last]

theorem crcByte_eq (r : BitVec 16) (b : Byte) : crcByte r b = (List.range 8).foldl
    (fun (r : BitVec 16) _ => if r.getLsbD 15 = true then (r <<< 1) ^^^ 0x1021#16 else r <<< 1)
    (r ^^^ (b.setWidth 16 <<< 8)) := by
  have hupper : b ++ 0#8 = b.setWidth 16 <<< 8 := by
    refine BitVec.eq_of_toNat_eq ?_
    have := b.isLt
    simp only [BitVec.toNat_append, BitVec.toNat_shiftLeft, BitVec.toNat_setWidth, Nat.shiftLeft_eq,
      BitVec.toNat_ofNat, Nat.zero_mod, Nat.or_zero]
    omega
  simp only [← crcShift_eq, ← hupper]
  rfl

/-! ### The commit -/

theorem execCommitWaveform_of_offers {s : State} {f : Frame} (h : s.offers f) (hk : f.kind = 0x21#8)
    (hn : f.payload.length = 6) :
    exec .commitWaveform s = .next (answerFrame f (commitWaveformBody f s.released)) :=
  fixedRequest_of_offers (kind := Kind.commitWaveform) h hk hn

/-- The CRC sent is the CRC of the staged bytes exactly when the numbers agree. -/
theorem crc_eq_sent (crc : BitVec 16) (p : List Byte) (i : Nat) : crc = BitVec.ofNat 16 (u16At p i) ↔ crc.toNat = u16At p i := by
  have hlow := u8At_le p i
  have hhigh := u8At_le p (i + 1)
  rw [← BitVec.toNat_inj, BitVec.toNat_ofNat, u16At]
  omega

/-- A commit whose CRC agrees: the content checks, then the installation or the held-commit record (R30 to R34). -/
def State.checkedCommit (m : Mode) (b : Fin 8) (length : Nat) (s : State) : Answer :=
  let L := (s.wave.stagingByte 2).toNat
  let S := (s.wave.stagingByte 3).toNat
  let crc := crc16 (s.wave.stagingBytes length)
  match s.wave.imageFault m b length with
  | some (reason, pos) => answer .badSet (encU8 reason ++ encU8 0 ++ encU16 pos) s
  | none =>
    if s.frame.users m b = 0 then
      answerOk (encU8 m.code ++ encU8 b.val ++ encU8 L ++ encU8 S ++ encFlag (s.wave.set? m b).isSome ++ encU8 0)
        { s with wave := s.wave.putSet m b (some (s.wave.imageSet s.wave.imageCharges crc)) }
    else
      answer .held (encU8 m.code ++ encU8 b.val ++ encU8 L ++ encU8 S ++ encFlag true ++ encU8 0)
        { s with wave.held := some { mode := m, band := b, length := length, crc := crc, charges := s.wave.imageCharges } }

theorem commitWaveformBody_of_fields {s : State} {f : Frame} {m : Mode} {b : Fin 8} (hm : u8At f.payload 0 = m.code)
    (hb : u8At f.payload 1 = b.val) (hlen : u16At f.payload 2 ≤ 16384) :
    commitWaveformBody f s = if s.wave.held.isSome then refuse .inUse s
      else if crc16 (s.wave.stagingBytes (u16At f.payload 2)) ≠ BitVec.ofNat 16 (u16At f.payload 4) then
        answer .crcMismatch (encU16 (crc16 (s.wave.stagingBytes (u16At f.payload 2))).toNat) s
      else s.checkedCommit m b (u16At f.payload 2) := by
  have hbytes : Config.stagingBytes = 16384 := rfl
  unfold commitWaveformBody State.checkedCommit
  simp only [(Mode.ofCode_eq_some _ m).2 hm, (bandOfCode_eq_some _ b).2 hb]
  exact (if_neg (by omega)).trans rfl

/-- Settles O28, check by check in the order of R28 to R30. -/
theorem commitRefused : Obligations.CommitRefused := by
  have hbytes : Config.stagingBytes = 16384 := rfl
  refine ⟨fun s f h hk hn => ?_, rfl, fun bytes b => ?_, by decide +kernel⟩
  · dsimp only
    rw [execCommitWaveform_of_offers h hk hn]
    obtain ⟨hmode, -, -, -, -, -, -, -⟩ := ofCode_eq_none (u8At f.payload 0)
    obtain ⟨-, -, -, -, -, -, -, hband⟩ := ofCode_eq_none (u8At f.payload 1)
    refine ⟨fun hfields => ?_, fun m b hm hb hlen => ?_⟩
    · unfold commitWaveformBody
      dsimp only
      split
      next m b hm hb =>
        have hm' : ¬ 4 < u8At f.payload 0 := fun hlt => by rw [hmode.2 hlt] at hm; cases hm
        have hb' : ¬ 7 < u8At f.payload 1 := fun hlt => by rw [hband.2 hlt] at hb; cases hb
        rw [if_pos (by omega), answerFrame_refuse]
      next => rw [answerFrame_refuse]
    · rw [commitWaveformBody_of_fields hm hb hlen, State.released_wave]
      refine ⟨fun hheld => ?_, fun hheld => ?_⟩
      · rw [if_pos (Option.isSome_iff_ne_none.2 hheld), answerFrame_refuse]
      · rw [if_neg (by simp [hheld])]
        refine ⟨fun hcrc => ?_, fun reason pos hcrc hfault => ?_⟩
        · have hne : crc16 (s.wave.stagingBytes (u16At f.payload 2)) ≠ BitVec.ofNat 16 (u16At f.payload 4) :=
            (crc_eq_sent _ _ _).not.2 hcrc
          rw [if_pos hne, answerFrame_answer]
          rfl
        · have heq : crc16 (s.wave.stagingBytes (u16At f.payload 2)) = BitVec.ofNat 16 (u16At f.payload 4) :=
            (crc_eq_sent _ _ _).2 hcrc
          rw [if_neg (not_not.2 heq), State.checkedCommit, State.released_wave, hfault,
            answerFrame_answer]
          rfl
  · rw [crc16, List.foldl_append, List.foldl_cons, List.foldl_nil, crcByte_eq, crc16]

/-- Settles O29: the set of the staged bytes, installed at once or held. -/
theorem commitInstallsOrHolds : Obligations.CommitInstallsOrHolds := by
  intro s f m b h hk hn hm hb hlen hheld hcrc hfault
  have hpasses := (s.wave.imageFault_eq_none_iff m b _).1 hfault
  have hcount : (s.wave.imageSet s.wave.imageCharges (crc16 (s.wave.stagingBytes (u16At f.payload 2)))).sequences.length =
      (s.wave.stagingByte 3).toNat := s.wave.length_imageSequences _ _
  have heq : crc16 (s.wave.stagingBytes (u16At f.payload 2)) = BitVec.ofNat 16 (u16At f.payload 4) :=
    (crc_eq_sent _ _ _).2 hcrc
  refine ⟨s.wave.imageSet s.wave.imageCharges (crc16 (s.wave.stagingBytes (u16At f.payload 2))),
    s.wave.imageSet_sound hpasses _, hcrc, s.wave.imageSet_isStaged hpasses _ _, rfl,
    s.wave.code_imageSet hpasses _ _, ?_⟩
  rw [execCommitWaveform_of_offers h hk hn, commitWaveformBody_of_fields hm hb hlen, State.released_wave,
    if_neg (by simp [hheld]), if_neg (not_not.2 heq), State.checkedCommit, State.released_wave, hfault, State.released_frame, hcount, ← FrameEngine.users_ne_zero]
  refine ⟨fun hfree => ?_, fun hused => ?_⟩
  · rw [if_pos (not_not.1 hfree), answerFrame_answerOk]
    exact ⟨_, rfl, rfl, hheld, fun m' b' => s.wave.set?_putSet m m' b b' _⟩
  · rw [if_neg hused, answerFrame_answer]
    rfl

/-! ### The erasure -/

/-- Settles O31, check by check in the order of R36. -/
theorem waveformErased : Obligations.WaveformErased := by
  intro s f h hk hn
  have hexec : exec .eraseWaveform s = .next (answerFrame f (eraseWaveformBody f s.released)) :=
    fixedRequest_of_offers (kind := Kind.eraseWaveform) h hk hn
  obtain ⟨hmode, -, -, -, -, -, -, -⟩ := ofCode_eq_none (u8At f.payload 0)
  obtain ⟨-, -, -, -, -, -, -, hband⟩ := ofCode_eq_none (u8At f.payload 1)
  dsimp only
  rw [hexec]
  unfold eraseWaveformBody
  refine ⟨fun hfields => ?_, fun m b hm hb => ?_⟩
  · split
    next m b hm hb =>
      have hm' : ¬ 4 < u8At f.payload 0 := fun hlt => by rw [hmode.2 hlt] at hm; cases hm
      have hb' : ¬ 7 < u8At f.payload 1 := fun hlt => by rw [hband.2 hlt] at hb; cases hb
      omega
    next => rw [answerFrame_refuse]
  · simp only [(Mode.ofCode_eq_some _ m).2 hm, (bandOfCode_eq_some _ b).2 hb, State.released_wave,
      Option.isSome_iff_ne_none, Option.isNone_iff_eq_none]
    rw [← FrameEngine.users_ne_zero]
    refine ⟨fun hheld => ?_, fun hheld hset => ?_, fun hheld hset hused => ?_, fun hheld hset hfree => ?_⟩
    · rw [if_pos hheld, answerFrame_refuse]
    · rw [if_neg (not_not.2 hheld), if_pos hset, answerFrame_refuse]
    · rw [if_neg (not_not.2 hheld), if_neg hset, if_pos (show s.released.frame.users m b ≠ 0 from hused),
        answerFrame_refuse]
    · rw [if_neg (not_not.2 hheld), if_neg hset,
        if_neg (show ¬ s.released.frame.users m b ≠ 0 from hfree)]
      exact ⟨_, rfl, rfl, hheld, fun m' b' => s.wave.set?_putSet m m' b b' none⟩

end Sys2Proof.Machine
end

section
/-! PROOF. The machine as a whole: the step, the power-on reset with the invariants it meets, and what every request shares in
its taking. -/

namespace Sys2Proof.Machine

/-- Settles O1: the step is the meaning of the command at the front. -/
theorem stepTakesFrontCommand : Obligations.StepTakesFrontCommand := by
  refine ⟨fun c cs s h => ?_, fun s h => ?_⟩
  · rw [step, h]
  · rw [step, h]

/-! ### The power-on reset -/

theorem WaveformStore.set?_reset (m : Mode) (b : Fin 8) : WaveformStore.reset.set? m b = none := by
  rw [WaveformStore.set?, WaveformStore.reset, Fin.getElem_fin, Vector.getElem_replicate]

theorem MessageLink.sound_reset : MessageLink.reset.sound :=
  ⟨trivial, by decide, by decide, fun h => absurd h (by decide), fun _ => rfl⟩

theorem State.ledgerSound_reset : State.reset.ledgerSound :=
  ⟨.of_empty rfl State.reset_slots, ⟨rfl, fun i j k hi => by cases hi⟩, State.rectsSound_reset,
    .of_stopped (by decide) State.reset_slots rfl rfl⟩

theorem State.setsSound_reset : State.reset.setsSound :=
  ⟨fun m b _ h => (by cases (WaveformStore.set?_reset m b).symm.trans h), fun _ h => (by cases h),
    fun i _ h => (by cases (State.reset_slots i).symm.trans h)⟩

theorem TemperatureUnit.sound_reset : TemperatureUnit.reset.sound :=
  ⟨by decide, List.isChain_nil, fun _ h => (by cases h), by decide, by decide, by decide, by decide, by decide,
    fun _ h => (by cases h), fun _ h => (by cases h), fun _ h => (by cases h)⟩

/-- Settles O3: each invariant on the state that holds nothing. -/
theorem resetHoldsInvariants : Obligations.ResetHoldsInvariants :=
  ⟨MessageLink.sound_reset, ⟨rfl, rfl, rfl, rfl⟩, ⟨by decide, by decide, by decide, by decide⟩,
    ⟨by decide, fun _ h => (by cases h)⟩, State.ledgerSound_reset, State.setsSound_reset,
    ⟨⟨rfl, rfl, rfl, rfl⟩, State.rectsSound_reset, fun _ _ _ _ => rfl⟩, TemperatureUnit.sound_reset, rfl, fun _ => rfl⟩

/-- Settles O4, block by block. -/
theorem powerOnReset : Obligations.PowerOnReset := fun _ =>
  ⟨_, rfl, rfl, WaveformStore.set?_reset, fun _ => rfl, rfl, rfl, rfl, rfl, State.reset_slots, rfl, rfl, rfl, rfl, rfl, rfl,
    rfl, rfl, rfl, rfl, rfl, rfl⟩

/-! ### The taking of requests -/

/-- A command of TABLE 10-2 is the taking of the request of its kind. -/
theorem exec_request (c : Instr) {k : Byte} (hk : c.requestKind = some k) :
    ∃ body, ∀ s, exec c s = request k body s := by
  cases c <;> cases hk <;> exact ⟨_, fun _ => rfl⟩

/-- A command whose request has a fixed length checks that length before everything else (R153). -/
theorem exec_fixedRequest (c : Instr) {k : Byte} {n : Nat} (hk : c.requestKind = some k) (hn : c.fixedLength = some n) :
    ∃ body, ∀ s, exec c s = request k (fixedLength n body) s := by
  cases c <;> cases hk <;> cases hn <;> exact ⟨_, fun _ => rfl⟩

theorem fixedRequest_of_ne {kind : Byte} {n : Nat} {body : Frame → State → Answer} {s : State} {f : Frame}
    (h : s.offers f) (hk : f.kind = kind) (hn : f.payload.length ≠ n) :
    request kind (fixedLength n body) s = .next (s.released.replied f .badLength []) := by
  rw [request_of_offers h hk, fixedLength_of_ne hn, answerFrame_refuse]

/-- Settles O16: the length check stands before the owner of the request. -/
theorem badLengthRefused : Obligations.BadLengthRefused := by
  intro c k n s f hk hn h hkind hlength
  obtain ⟨body, hbody⟩ := exec_fixedRequest c hk hn
  rw [hbody, fixedRequest_of_ne h hkind hlength]

theorem State.canTake_iff {s : State} : s.canTake = true ↔ s.link.replies.length < 32 ∧ s.notice.ended = [] := by
  rw [State.canTake, Bool.and_eq_true, List.isEmpty_iff]
  exact and_congr_left fun _ => decide_eq_true_iff

/-- No request is taken but the oldest frame's, and none without a place for its reply. -/
theorem request_of_not_taken {k : Byte} {body : Frame → State → Answer} {s : State}
    (h : s.link.frames = [] ∨ (∃ f, s.link.frames.head? = some f ∧ f.kind ≠ k) ∨ 32 ≤ s.link.replies.length ∨
      s.notice.ended ≠ []) : request k body s = .next s := by
  rcases takeRequest_cases (fun b => b == k) body s with ⟨g, ⟨hg, htake⟩, hkind, -⟩ | hidle
  · obtain ⟨hroom, hnone⟩ := State.canTake_iff.1 htake
    rcases h with hempty | ⟨f, hf, hne⟩ | hfull | hended
    · rw [hempty] at hg
      cases hg
    · cases hf.symm.trans hg
      exact absurd (by simpa using hkind) hne
    · omega
    · exact absurd hnone hended
  · exact hidle

/-- The commands that take a request of TABLE 10-2, in the order of the kinds. -/
def requestCommands : List Instr :=
  [.status, .resetPart, .panelSetup, .writeImage, .fillImage, .readImage, .readPanel, .loadWaveform, .commitWaveform,
   .eraseWaveform, .listWaveforms, .setBands, .setSensor, .sampleNow, .startUpdate, .cancelUpdate, .queryQueue, .queryTiles,
   .markTiles, .setPolicy, .stopAll, .querySlots, .setRails, .railResume, .setNotices, .fetchNotices, .waitUpdate]

theorem knownKinds_eq : knownKinds = requestCommands.filterMap Instr.requestKind := rfl

theorem mem_knownKinds (k : Byte) : k ∈ knownKinds ↔ ∃ c : Instr, c.requestKind = some k := by
  rw [knownKinds_eq, List.mem_filterMap]
  constructor
  · rintro ⟨c, -, hc⟩
    exact ⟨c, hc⟩
  · rintro ⟨c, hc⟩
    refine ⟨c, ?_, hc⟩
    cases c <;> cases hc <;> decide

/-- Settles O15: the turn and the room, and the kinds that name no request. -/
theorem requestsTakenInTurn : Obligations.RequestsTakenInTurn := by
  refine ⟨fun c k s hk h => ?_, mem_knownKinds, fun s f h hkind => ?_⟩
  · obtain ⟨body, hbody⟩ := exec_request c hk
    rw [hbody, request_of_not_taken h]
  · have hunknown : f.kind ∉ knownKinds := by
      rw [mem_knownKinds]
      exact fun ⟨c, hc⟩ => hkind c hc
    exact takeRequest_of_offers h (by simpa using hunknown)

/-! ### Quantization -/

/-- Settles O26, mode by mode over the sixteen levels. -/
theorem quantizedToNearest : Obligations.QuantizedToNearest := by
  intro m
  cases m <;> decide

end Sys2Proof.Machine
end

section
/-! PROOF. Chapter 3, and the ranges of the values of chapters 3 and 5: the end of a sensor cycle, the bands, the settings of the
sensor, and what every command keeps of them. -/

namespace Sys2Proof.Machine

/-! ### The Temperature Unit through every step -/

/-- A table of at most seven boundaries is counted whole by the direct band (R49). -/
theorem directBand_val {bs : List Int} (h : bs.length ≤ 7) (t : Int) :
    (directBand bs t).val = bs.countP fun b => 16 * b ≤ t :=
  Nat.min_eq_left (List.countP_le_length.trans h)

theorem directBand_le {bs : List Int} (h : bs.length ≤ 7) (t : Int) : (directBand bs t).val ≤ bs.length := by
  rw [directBand_val h]
  exact List.countP_le_length

theorem decodeSample_isSample {w : SensorWord} {t : Int} (h : decodeSample w = some t) : isSample t := by
  obtain ⟨-, hdecode, -⟩ := sensorWordDecoded
  have hw : w ≠ 0xFFFF#16 := fun hw => by rw [hw, decodeSample_failed] at h; cases h
  obtain ⟨v, hv, hmin, hmax, -⟩ := hdecode w hw
  cases hv.symm.trans h
  exact ⟨hmin, hmax⟩

theorem TemperatureUnit.sound.trigger {u : TemperatureUnit} (hu : u.sound) : u.trigger.sound := by
  unfold TemperatureUnit.trigger
  split <;> exact hu

theorem TemperatureUnit.sound.railOn {u : TemperatureUnit} (hu : u.sound) : u.railOn.sound := by
  have hfresh : ({ u with fresh := false } : TemperatureUnit).sound := hu
  unfold TemperatureUnit.railOn
  dsimp only
  split
  · exact hfresh.trigger
  · exact hfresh

theorem TemperatureUnit.sound.frameStart {u : TemperatureUnit} (hu : u.sound) : u.frameStart.sound := by
  obtain ⟨hlength, hchain, hrange, hband, hfailures, hmin, hmax, hdivider, hlatches⟩ := hu
  unfold TemperatureUnit.frameStart
  split
  · split
    · exact TemperatureUnit.sound.trigger ⟨hlength, hchain, hrange, hband, hfailures, hmin, hmax, hmin, hlatches⟩
    next hcount => exact ⟨hlength, hchain, hrange, hband, hfailures, hmin, hmax, Nat.lt_of_not_le hcount, hlatches⟩
  · exact ⟨hlength, hchain, hrange, hband, hfailures, hmin, hmax, hdivider, hlatches⟩

theorem SensorStep.sound {u v : TemperatureUnit} {c : Instr} (h : SensorStep u c v) (hu : u.sound) : v.sound := by
  have hu' := hu
  obtain ⟨hlength, hchain, hrange, hband, hfailures, hmin, hmax, hdivider, hlast, hlatch, hnotice⟩ := hu'
  cases h with
  | setBands bs hlength' hchain' hrange' =>
    refine ⟨hlength', hchain', hrange', ?_, hfailures, hmin, hmax, hdivider, hlast, hlatch, hnotice⟩
    dsimp only
    split
    · exact directBand_le hlength' _
    · exact Nat.zero_le _
  | setSensor g mode ref hmin' hmax' =>
    exact ⟨hlength, hchain, hrange, hband, hfailures, hmin', hmax', hmin', hlast, hlatch, hnotice⟩
  | sampleNow => exact hu.trigger
  | timerExpiry => exact TemperatureUnit.sound.trigger hu
  | gapEnd => exact hu
  | failed w n st hn => exact ⟨hlength, hchain, hrange, hband, hn, hmin, hmax, hdivider, hlast, hlatch, hnotice⟩
  | valid w t band bandLatch noticeLatch mode ref hsample hband' hlatch' hnotice' =>
    have hvalid : ∀ v, some t = some v → isSample v := fun v hv => by
      cases hv
      exact decodeSample_isSample hsample
    refine ⟨hlength, hchain, hrange, ?_, Nat.zero_le _, hmin, hmax, hdivider, hvalid, ?_, ?_⟩
    · rcases hband' with rfl | rfl
      · exact hband
      · exact directBand_le hlength t
    · rcases hlatch' with rfl | rfl
      · exact hlatch
      · exact hvalid
    · rcases hnotice' with rfl | rfl
      · exact hnotice
      · exact hvalid

theorem CoreStep.tempSound {s u : State} {c : Instr} (h : CoreStep s c u) (hs : s.temp.sound) : u.temp.sound := by
  cases h with
  | powerOnReset => exact TemperatureUnit.sound_reset
  | sensor c v hv => exact hv.sound hs
  | resetPart =>
    have htemp : s.softReset.temp = s.temp.softReset := by simp [State.softReset]
    rw [htemp]
    obtain ⟨hlength, hchain, hrange, hband, hfailures, hmin, hmax, -, hlatches⟩ := hs
    exact ⟨hlength, hchain, hrange, hband, hfailures, hmin, hmax, hmin, hlatches⟩
  | tick => exact hs
  | tickOn => exact TemperatureUnit.sound.railOn (u := s.temp.tick) hs
  | pwrGoodOn => exact hs.railOn
  | frameStart =>
    rw [State.settlePass_temp]
    exact hs.frameStart
  | lost =>
    rw [State.supplyLoss_temp]
    exact hs
  | frameEnd =>
    rw [State.installHeld_temp, State.frameAdvanced, State.foldl_advanceSlot_temp]
    exact hs
  | cancel | stopAll | passed | waits | refused | admitted =>
    rw [State.settlePass_temp]
    exact hs
  | _ => exact hs

/-! ### The accounts of the tiles through every step -/

/-- The residue and the charge of a tile are within their ranges (R77). -/
def TileRecord.bounded (r : TileRecord) : Prop := r.residue ≤ Config.maxResidue ∧ -32768 ≤ r.charge ∧ r.charge ≤ 32767

theorem TileRecord.bounded_fresh : TileRecord.fresh.bounded := by
  unfold TileRecord.bounded
  decide

theorem saturate_bounds (z : Int) : -32768 ≤ saturate z ∧ saturate z ≤ 32767 := by
  unfold saturate
  omega

theorem State.accountsBounded.tiles {s : State} (hs : s.accountsBounded) : ∀ r ∈ s.ghost.tiles, r.bounded := hs.2

/-- A change of the tiles of a rectangle that keeps the account of each in its range. -/
theorem State.mapTiles_bounded {s : State} (t : TileRect) {f : Nat → Nat → TileRecord → TileRecord}
    (hs : ∀ r ∈ s.ghost.tiles, r.bounded) (hf : ∀ i j r, r.bounded → (f i j r).bounded) :
    ∀ r ∈ (s.mapTiles t f).ghost.tiles, r.bounded := by
  intro r hr
  obtain ⟨k, hk, rfl⟩ := List.mem_mapIdx.1 hr
  have hold := hs _ (List.getElem_mem hk)
  split
  · exact hf _ _ _ hold
  · exact hold

theorem State.releaseTiles_bounded {s : State} (t : TileRect) (c : Option Condition) (hs : ∀ r ∈ s.ghost.tiles, r.bounded) :
    ∀ r ∈ (s.releaseTiles t c).ghost.tiles, r.bounded :=
  s.mapTiles_bounded t hs fun _ _ _ hr => hr

theorem State.finishSlot_bounded {s : State} (hs : ∀ r ∈ s.ghost.tiles, r.bounded) (i : Fin 16) (sl : Slot)
    (o : UpdateOutcome) (n : Nat) : ∀ r ∈ (s.finishSlot i sl o n).ghost.tiles, r.bounded := by
  rw [State.finishSlot_ghost]
  exact State.releaseTiles_bounded _ _ hs

theorem State.abortSlot_bounded {s : State} (hs : ∀ r ∈ s.ghost.tiles, r.bounded) (i : Fin 16) :
    ∀ r ∈ (s.abortSlot i).ghost.tiles, r.bounded := by
  rcases s.abortSlot_cases i with ⟨-, h⟩ | ⟨sl, -, h⟩
  · rwa [h]
  · rw [h]
    exact State.finishSlot_bounded hs _ _ _ _

theorem State.advanceSlot_bounded {s : State} (hs : ∀ r ∈ s.ghost.tiles, r.bounded) (i : Fin 16) :
    ∀ r ∈ (s.advanceSlot i).ghost.tiles, r.bounded := by
  rcases s.advanceSlot_cases i with ⟨-, h⟩ | ⟨sl, -, ⟨-, h⟩ | ⟨-, -, h⟩ | ⟨-, -, h⟩⟩
  · rwa [h]
  · rw [h]
    exact State.finishSlot_bounded hs _ _ _ _
  · rw [h]
    exact State.finishSlot_bounded hs _ _ _ _
  · rw [h]
    exact hs

theorem State.finishSlot_policy (s : State) (i : Fin 16) (sl : Slot) (o : UpdateOutcome) (n : Nat) :
    (s.finishSlot i sl o n).ghost.policy = s.ghost.policy := by
  rw [State.finishSlot_ghost]
  rfl

theorem State.abortSlot_policy (s : State) (i : Fin 16) : (s.abortSlot i).ghost.policy = s.ghost.policy := by
  rcases s.abortSlot_cases i with ⟨-, h⟩ | ⟨sl, -, h⟩
  · rw [h]
  · rw [h, State.finishSlot_policy]

theorem State.advanceSlot_policy (s : State) (i : Fin 16) : (s.advanceSlot i).ghost.policy = s.ghost.policy := by
  rcases s.advanceSlot_cases i with ⟨-, h⟩ | ⟨sl, -, ⟨-, h⟩ | ⟨-, -, h⟩ | ⟨-, -, h⟩⟩
  · rw [h]
  · rw [h, State.finishSlot_policy]
  · rw [h, State.finishSlot_policy]
  · rw [h]

theorem markTile_bounded (action : Nat) {r : TileRecord} (hr : r.bounded) : (markTile action r).bounded := by
  unfold markTile
  split
  · exact hr
  · split
    · exact hr
    · exact ⟨Nat.zero_le _, (by decide : (-32768 : Int) ≤ 0 ∧ (0 : Int) ≤ 32767)⟩

theorem TileRecord.tick_bounded {r : TileRecord} (hr : r.bounded) : r.tick.bounded := by
  unfold TileRecord.tick
  split <;> exact hr

/-- What a plan writes to a tile is within the ranges: the clear residue by the bound of its weight, the rest by its clamps. -/
theorem State.plannedTile_bounded {s : State} (hw : s.ghost.policy.weightClear ≤ 255) (e : PendingEntry) (eff : Mode)
    (b : Fin 8) (i j : Nat) (r : TileRecord) : (s.plannedTile e eff b i j r).bounded := by
  unfold State.plannedTile
  split
  · have hle : s.clearResidue e i j ≤ 255 := increment_le_of_le hw (s.changeCount_le e .clear i j)
    exact ⟨hle.trans (by decide), saturate_bounds _⟩
  · exact ⟨Nat.min_le_left _ _, saturate_bounds _⟩

/-- Every change of the tile table and of the weight of CLEAR (R77, R80). -/
theorem CoreStep.accountsBounded {s u : State} {c : Instr} (h : CoreStep s c u) (hs : s.accountsBounded) :
    u.accountsBounded := by
  obtain ⟨hweight, htiles⟩ := hs
  replace htiles : ∀ r ∈ s.ghost.tiles, r.bounded := htiles
  cases h with
  | powerOnReset => exact ⟨(by decide : GhostPolicy.reset.weightClear ≤ 255), fun _ h => (by cases h)⟩
  | resetPart =>
    have hghost : s.softReset.ghost = (s.frame.active.foldl State.freeSlotSilently s).ghost := rfl
    have hpolicy : (s.frame.active.foldl State.freeSlotSilently s).ghost.policy = s.ghost.policy :=
      foldl_keeps (fun t => t.ghost.policy = s.ghost.policy) State.freeSlotSilently _ (fun _ _ _ ht => ht) rfl
    refine ⟨by rw [hghost, hpolicy]; exact hweight, ?_⟩
    rw [hghost]
    exact foldl_keeps (fun t => ∀ r ∈ t.ghost.tiles, r.bounded) _ _
      (fun t q _ ht => State.releaseTiles_bounded (s := { t with
        pixel.next := t.pixel.next.paint (t.pixel.driveSet q.2) t.pixel.believed.level,
        frame := t.frame.setSlot q.1 none }) _ _ ht) htiles
  | panelSetup =>
    refine ⟨hweight, fun r hr => ?_⟩
    rw [List.eq_of_mem_replicate hr]
    exact TileRecord.bounded_fresh
  | setPolicy g hclear => exact ⟨hclear, htiles⟩
  | mark r action => exact ⟨hweight, State.mapTiles_bounded _ htiles fun _ _ _ hr => markTile_bounded action hr⟩
  | tick | tickOn =>
    refine ⟨hweight, fun r hr => ?_⟩
    obtain ⟨r', hr', rfl⟩ := List.mem_map.1 hr
    exact TileRecord.tick_bounded (htiles r' hr')
  | lost =>
    have hpolicy : ({ s with rail.pwrGood := false } : State).aborted.ghost.policy = s.ghost.policy :=
      foldl_keeps (fun t => t.ghost.policy = s.ghost.policy) State.abortSlot _
        (fun t i _ ht => by rw [← ht, State.abortSlot_policy]) rfl
    unfold State.accountsBounded
    rw [State.supplyLoss_ghost, hpolicy]
    exact ⟨hweight, foldl_keeps (fun t => ∀ r ∈ t.ghost.tiles, r.bounded) State.abortSlot _
      (fun t i _ ht => State.abortSlot_bounded ht i) htiles⟩
  | frameEnd =>
    have hpolicy : s.frameAdvanced.ghost.policy = s.ghost.policy :=
      foldl_keeps (fun t => t.ghost.policy = s.ghost.policy) State.advanceSlot _
        (fun t i _ ht => by rw [← ht, State.advanceSlot_policy]) rfl
    unfold State.accountsBounded
    rw [State.installHeld_ghost, hpolicy]
    exact ⟨hweight, foldl_keeps (fun t => ∀ r ∈ t.ghost.tiles, r.bounded) State.advanceSlot _
      (fun t i _ ht => State.advanceSlot_bounded ht i) htiles⟩
  | admitted n i e eff esc =>
    unfold State.accountsBounded
    rw [State.settlePass_ghost]
    exact ⟨hweight, State.mapTiles_bounded (s := s) e.hull
      (f := fun x y r => { s.plannedTile e eff s.temp.band x y r with owner := some i }) htiles
      fun x y r _ => State.plannedTile_bounded hweight e eff s.temp.band x y r⟩
  | cancel | stopAll | passed | waits | refused | frameStart =>
    unfold State.accountsBounded
    rw [State.settlePass_ghost]
    exact ⟨hweight, htiles⟩
  | _ => exact ⟨hweight, htiles⟩

/-- Settles O38: both ranges as invariants of the steps behind the host port. -/
theorem valuesStayInRange : Obligations.ValuesStayInRange := fun _ _ _ ht =>
  ⟨fun hs => exec_keeps (fun s => s.temp.sound) (fun _ => Iff.rfl) (fun _ _ _ => CoreStep.tempSound) hs ht,
    fun hs => exec_keeps State.accountsBounded (fun _ => Iff.rfl) (fun _ _ _ => CoreStep.accountsBounded) hs ht⟩

/-! ### Triggers -/

/-- Settles O35: the trigger by the cycle state, and its sources. -/
theorem triggersTaken : Obligations.TriggersTaken := by
  refine ⟨fun u => ⟨fun h => ?_, fun h => ?_⟩, fun s f h hk hp => ?_, fun s h => if_pos h, fun u => rfl, fun u =>
    ⟨fun h => if_neg h, fun h hcount => ?_, fun h hcount => ?_⟩⟩
  · simp only [TemperatureUnit.trigger, h]
  · unfold TemperatureUnit.trigger
    split
    next hc => exact absurd hc h
    next => rfl
  · have hexec : exec .sampleNow s = .next (answerFrame f (sampleNowBody f s.released)) :=
      fixedRequest_of_offers (kind := Kind.sampleNow) h hk (by rw [hp]; rfl)
    rw [hexec, sampleNowBody, answerFrame_answerOk]
    by_cases hc : s.temp.cycle = .ready <;> simp [encFlag, encU8, hc]
  · rw [TemperatureUnit.frameStart, if_pos h, if_neg (by omega)]
  · rw [TemperatureUnit.frameStart, if_pos h, if_pos hcount]

/-! ### The end of a sensor cycle -/

/-- The comparator raises TEMP for a sample with this inside result (R52). -/
def TemperatureUnit.raisesTemp (u : TemperatureUnit) (inside : Bool) : Bool :=
  match u.comparator with
  | .off => false
  | .once => !inside
  | .change => u.reference = some !inside
  | .every => true

/-- The Temperature Unit once the comparator has looked at a sample (R52). -/
def TemperatureUnit.compared (u : TemperatureUnit) (t : Int) (inside : Bool) : TemperatureUnit :=
  { u with
    comparator := if u.comparator = .once ∧ inside = false then .off else u.comparator,
    reference := if u.comparator = .change then some inside else u.reference,
    noticeLatch := if u.raisesTemp inside then some t else u.noticeLatch }

theorem State.compare_eq (t : Int) (inside : Bool) (s : State) : s.compare t inside =
    if s.temp.raisesTemp inside then ({ s with temp := s.temp.compared t inside } : State).raise .temp
    else { s with temp := s.temp.compared t inside } := by
  obtain ⟨pixel, wave, temp, sched, ghost, frame, rail, notice, link, pending⟩ := s
  obtain ⟨cycle, timer, settings, comparator, status, lastValid, failures, boundaries, band, bandLatch, noticeLatch,
    reference, drops, divider, fresh⟩ := temp
  cases comparator with
  | off => rfl
  | once => cases inside <;> rfl
  | change =>
    rcases reference with _ | r
    · rfl
    · cases r <;> cases inside <;> rfl
  | every => rfl

/-- Settles O36: the failed cycle by its count, the valid one by the comparator's cases. -/
theorem sensorCycleEnds : Obligations.SensorCycleEnds := by
  refine ⟨⟨fun s hc => ?_, fun s hc => if_pos hc⟩, fun w v s hc hw hs => ?_⟩
  · have hexec : exec (.sensorCycleEnd 0xFFFF#16) s =
        .next ({ s with temp.cycle := .gap s.temp.settings.gap } : State).failedSample := if_pos hc
    dsimp only
    rw [hexec, State.failedSample]
    refine ⟨fun hstays => ?_, fun hstatus hlimit => ?_⟩
    · exact congrArg _ (if_neg fun ⟨hstatus, hlimit⟩ => hstays.elim hstatus (Nat.not_lt.2 hlimit))
    · exact congrArg _ (if_pos ⟨hstatus, hlimit⟩)
  · intro bs c h inside raises
    have hinside : insideBand s.temp.boundaries s.temp.band s.temp.settings.hysteresis v = decide inside := by
      rw [Bool.eq_iff_iff, decide_eq_true_iff]
      simp only [insideBand, Bool.and_eq_true, Bool.or_eq_true, decide_eq_true_eq, inside, bs, c, h]
    have hraises : raises = s.temp.raisesTemp (decide inside) := by
      simp only [raises, TemperatureUnit.raisesTemp]
      cases s.temp.comparator with
      | off | every => rfl
      | once => exact decide_not
      | change => rcases s.temp.reference with _ | r <;> by_cases hi : inside <;> simp [hi]
    have hexec : exec (.sensorCycleEnd w) s = .next (({ s with
        temp := ({ s.temp with cycle := .gap s.temp.settings.gap } : TemperatureUnit).sampled v (decide inside) } :
        State).compare v (decide inside)) := by
      rw [exec_sensorCycleEnd_valid hc hw, State.validSample_eq, ← hinside]
    rw [State.compare_eq] at hexec
    refine ⟨(({ s.temp with cycle := .gap s.temp.settings.gap } : TemperatureUnit).sampled v (decide inside)).compared v
      (decide inside), hexec.trans ?_, ?_, fun hi => if_pos (decide_eq_true hi), fun hi => ?_⟩
    · rw [hraises]
      rfl
    · rw [hraises]
      by_cases hi : inside <;> simp [TemperatureUnit.compared, TemperatureUnit.sampled, TemperatureUnit.raisesTemp, hi]
    · have hband : (({ s.temp with cycle := .gap s.temp.settings.gap } : TemperatureUnit).sampled v (decide inside)).band =
          directBand bs v := if_neg (by simpa using hi)
      exact (congrArg Fin.val hband).trans (directBand_val hs.1 v)

end Sys2Proof.Machine
end

section
/-! PROOF. The bands of chapter 3.4, and the settings that requests replace (R49 to R53, R80, R125). -/

namespace Sys2Proof.Machine

/-! ### Bytes of a payload -/

theorem ofNat_u8At (p : List Byte) (i : Nat) : BitVec.ofNat 8 (u8At p i) = p.getD i 0#8 := BitVec.ofNat_toNat _ _

/-- A run of bytes that the payload holds, byte by byte. -/
theorem drop_take_eq (p : List Byte) (i n : Nat) (h : i + n ≤ p.length) :
    (p.drop i).take n = (List.range n).map fun j => p.getD (i + j) 0#8 := by
  refine List.ext_getElem (by simp; omega) fun j hj _ => ?_
  have hlt : i + j < p.length := by
    rw [List.length_take, List.length_drop] at hj
    omega
  rw [List.getElem_take, List.getElem_drop, List.getElem_map, List.getElem_range, List.getD_eq_getElem _ _ hlt]

/-- A flag that is at most 1 is sent back as it came. -/
theorem encFlag_u8At {p : List Byte} {i : Nat} (h : u8At p i ≤ 1) : encFlag (u8At p i = 1) = [p.getD i 0#8] := by
  rw [← ofNat_u8At]
  rcases Nat.le_one_iff_eq_zero_or_eq_one.1 h with h | h <;> rw [h] <;> rfl

/-! ### The bands -/

/-- In an ascending table the boundaries at or below a temperature are the first ones, as many as the direct band says (R49). -/
theorem boundary_le_iff_lt_countP {bs : List Int} (hbs : bs.Pairwise (· < ·)) (v : Int) (i : Nat) (hi : i < bs.length) :
    16 * bs[i] ≤ v ↔ i < bs.countP fun b => 16 * b ≤ v := by
  induction bs generalizing i with
  | nil => cases hi
  | cons b bs ih =>
    obtain ⟨hfirst, hrest⟩ := List.pairwise_cons.1 hbs
    by_cases hb : 16 * b ≤ v
    · rw [List.countP_cons_of_pos (by simpa using hb)]
      cases i with
      | zero => simpa using hb
      | succ i =>
        rw [List.getElem_cons_succ, ih hrest i (Nat.lt_of_succ_lt_succ hi)]
        omega
    · have hnone : (bs.countP fun b => 16 * b ≤ v) = 0 := List.countP_eq_zero.2 fun x hx => by
        have := hfirst x hx
        simp only [decide_eq_true_eq]
        omega
      rw [List.countP_cons_of_neg (by simpa using hb), hnone]
      cases i with
      | zero => simpa using hb
      | succ i =>
        have := hfirst _ (List.getElem_mem (Nat.lt_of_succ_lt_succ hi))
        rw [List.getElem_cons_succ]
        omega

/-- The current band is the direct one exactly when the temperature lies between its boundaries (R49). -/
theorem directBand_eq_iff {u : TemperatureUnit} (hu : u.sound) (v : Int) : directBand u.boundaries v = u.band ↔
    insideBand u.boundaries u.band 0 v = true := by
  obtain ⟨hlength, hchain, -, hband, -⟩ := hu
  have hcount := boundary_le_iff_lt_countP hchain.pairwise v
  have hle : (u.boundaries.countP fun b => 16 * b ≤ v) ≤ u.boundaries.length := List.countP_le_length
  rw [Fin.ext_iff, directBand_val hlength]
  simp only [insideBand, Bool.and_eq_true, Bool.or_eq_true, decide_eq_true_eq]
  generalize (u.boundaries.countP fun b => 16 * b ≤ v) = n at *
  have hlow : u.band.val = 0 ∨ 16 * u.boundaries.getD (u.band.val - 1) 0 - (0 : Nat) ≤ v ↔ u.band.val ≤ n := by
    rcases Nat.eq_zero_or_pos u.band.val with h0 | hpos
    · simp [h0]
    · have := hcount (u.band.val - 1) (by omega)
      rw [List.getD_eq_getElem _ _ (by omega)]
      omega
  have hhigh : u.band.val = u.boundaries.length ∨ v < 16 * u.boundaries.getD u.band.val 0 + (0 : Nat) ↔ n ≤ u.band.val := by
    rcases Nat.lt_or_eq_of_le hband with hlt | heq
    · have := hcount u.band.val hlt
      rw [List.getD_eq_getElem _ _ hlt]
      omega
    · simp only [heq, true_or, true_iff]
      exact hle
  rw [hlow, hhigh]
  omega

/-- Hysteresis widens the band. -/
theorem insideBand_of_zero {bs : List Int} {c : Fin 8} {v : Int} (h : Nat) (hin : insideBand bs c 0 v = true) :
    insideBand bs c h v = true := by
  simp only [insideBand, Bool.and_eq_true, Bool.or_eq_true, decide_eq_true_eq] at hin ⊢
  omega

/-- The boundaries a SET_BANDS gives, clamped (R51). -/
def sentBoundary (p : List Byte) (i : Nat) : Int := max (-40) (min 85 (i16At p (2 + 2 * i)))

theorem execSetBands_of_offers {s : State} {f : Frame} (h : s.offers f) (hk : f.kind = 0x30#8) (hn : f.payload.length = 16) :
    exec .setBands s = .next (answerFrame f (setBandsBody f s.released)) :=
  fixedRequest_of_offers (kind := Kind.setBands) h hk hn

/-- The boundaries ascend after clamping exactly when each is below its next (R51). -/
theorem isChain_sentBoundary (p : List Byte) (n : Nat) : ((List.range n).map (sentBoundary p)).IsChain (· < ·) ↔
    ∀ i, i + 1 < n → sentBoundary p i < sentBoundary p (i + 1) := by
  simp [List.isChain_iff_getElem]

theorem sentBoundary_getElem? (p : List Byte) {n i : Nat} (hi : i < n) :
    ((List.range n).map (sentBoundary p))[i]? = some (sentBoundary p i) := by
  simp [hi]

/-- The table sent back: the boundaries taken, and 0 in the places behind them (R51). -/
theorem sentBoundary_getD (p : List Byte) (n i : Nat) :
    ((List.range n).map (sentBoundary p)).getD i 0 = if i < n then sentBoundary p i else 0 := by
  rw [List.getD_eq_getElem?_getD]
  split
  next hi => rw [sentBoundary_getElem? p hi, Option.getD_some]
  next hi => rw [List.getElem?_eq_none (by simpa using hi), Option.getD_none]

/-- The current band of a new table: that of the last valid sample, 0 where there is none (R51). -/
def bandOfLast (bs : List Int) (last : Option Int) : Fin 8 := last.elim 0 (directBand bs)

theorem setBandsBody_eq (f : Frame) (s : State) : setBandsBody f s =
    if u8At f.payload 0 = 0 ∨ 8 < u8At f.payload 0 then refuse .badField s
    else if ¬ ((List.range (u8At f.payload 0 - 1)).map (sentBoundary f.payload)).IsChain (· < ·) then refuse .badField s
    else
      let bs := (List.range (u8At f.payload 0 - 1)).map (sentBoundary f.payload)
      answerOk ([BitVec.ofNat 8 (u8At f.payload 0), BitVec.ofNat 8 (bandOfLast bs s.temp.lastValid).val] ++
          ((List.range 7).map fun i =>
            encI16 (if i < u8At f.payload 0 - 1 then sentBoundary f.payload i else 0)).flatten)
        { s with temp := { s.temp with boundaries := bs, band := bandOfLast bs s.temp.lastValid, reference := none } } := by
  simp only [← sentBoundary_getD, ← List.flatMap_def]
  obtain ⟨pixel, wave, temp, sched, ghost, frame, rail, notice, link, pending⟩ := s
  obtain ⟨cycle, timer, settings, comparator, status, lastValid, failures⟩ := temp
  cases lastValid <;> rfl

/-- Settles O37: the direct band by the ascending table, and SET_BANDS check by check. -/
theorem bandsSelected : Obligations.BandsSelected := by
  refine ⟨fun u v hu => ⟨directBand_val hu.1 v, fun hout heq => ?_, fun _ hin => (directBand_eq_iff hu v).2 hin⟩,
    fun s f h hk hn => ?_⟩
  · rw [insideBand_of_zero _ ((directBand_eq_iff hu v).1 heq)] at hout
    cases hout
  · dsimp only
    rw [execSetBands_of_offers h hk hn, setBandsBody_eq]
    refine ⟨fun hcount => ?_, fun h1 h8 hasc => ?_, fun h1 h8 hasc => ?_⟩
    · rw [if_pos hcount, answerFrame_refuse]
    · rw [if_neg (by omega), if_pos ((isChain_sentBoundary _ _).not.2 hasc), answerFrame_refuse]
    · rw [if_neg (by omega), if_neg (not_not.2 ((isChain_sentBoundary _ _).2 hasc)), answerFrame_answerOk]
      have hlength : ((List.range (u8At f.payload 0 - 1)).map (sentBoundary f.payload)).length ≤ 7 := by
        rw [List.length_map, List.length_range]
        omega
      refine ⟨_, _, rfl, by simp, fun i hi => sentBoundary_getElem? _ hi, fun v hv => ?_, fun hv => ?_⟩
      · rw [State.released_temp, hv]
        exact directBand_val hlength v
      · rw [State.released_temp, hv]
        rfl

/-! ### Settings -/

/-- Settles O39: each request with its clamps. -/
theorem settingsReplaced : Obligations.SettingsReplaced := by
  refine ⟨fun s f h hk hn => ?_, fun s f h hk hn => ?_, fun s f h hk hn => ?_⟩
  · have hexec : exec .setSensor s = .next (answerFrame f (setSensorBody f s.released)) :=
      fixedRequest_of_offers (kind := Kind.setSensor) h hk hn
    obtain ⟨-, -, hsource, -, -, -, -, -⟩ := ofCode_eq_none (u8At f.payload 0)
    obtain ⟨-, -, -, hmode, -, -, -, -⟩ := ofCode_eq_none (u8At f.payload 1)
    dsimp only
    rw [hexec]
    unfold setSensorBody
    refine ⟨fun hfields => ?_, fun source mode hs hm => ?_⟩
    · dsimp only
      split
      next source mode hs hm =>
        have hs' : ¬ 3 < u8At f.payload 0 := fun hlt => by rw [hsource.2 hlt] at hs; cases hs
        have hm' : ¬ 3 < u8At f.payload 1 := fun hlt => by rw [hmode.2 hlt] at hm; cases hm
        omega
      next => rw [answerFrame_refuse]
    · have hclamp (i : Nat) : clamp 1 255 (u8At f.payload i) = max 1 (u8At f.payload i) := by
        rw [clamp, Nat.min_eq_right (u8At_le _ _)]
      simp only [(TriggerSource.ofCode_eq_some _ source).2 hs, (ComparatorMode.ofCode_eq_some _ mode).2 hm, hclamp]
      rfl
  · have hexec : exec .setPolicy s = .next (answerFrame f (setPolicyBody f s.released)) :=
      fixedRequest_of_offers (kind := Kind.setPolicy) h hk hn
    dsimp only
    rw [hexec]
    unfold setPolicyBody
    refine ⟨fun hflags => ?_, fun h11 h12 => ?_⟩
    · rw [if_pos hflags, answerFrame_refuse]
    · have hbytes : (f.payload.drop 6).take 7 = [BitVec.ofNat 8 (u8At f.payload 6), BitVec.ofNat 8 (u8At f.payload 7),
          BitVec.ofNat 8 (u8At f.payload 8), BitVec.ofNat 8 (u8At f.payload 9), BitVec.ofNat 8 (u8At f.payload 10)] ++
          encFlag (u8At f.payload 11 = 1) ++ encFlag (u8At f.payload 12 = 1) := by
        rw [encFlag_u8At h11, encFlag_u8At h12, drop_take_eq _ _ _ (by omega)]
        simp only [ofNat_u8At]
        rfl
      have hclamp : clamp 0 2000 (u16At f.payload 4) = min 2000 (u16At f.payload 4) := Nat.zero_max _
      rw [if_neg (by omega), answerFrame_answerOk, hbytes]
      simp only [encPolicy, hclamp, List.append_assoc]
      rfl
  · have hexec : exec .setRails s = .next (answerFrame f (setRailsBody f s.released)) :=
      fixedRequest_of_offers (kind := Kind.setRails) h hk hn
    have hclamp : clamp 0 1000 (u16At f.payload 4) = min 1000 (u16At f.payload 4) := Nat.zero_max _
    dsimp only
    rw [hexec, setRailsBody, hclamp]
    rfl

end Sys2Proof.Machine
end

section
/-! PROOF. Chapter 1: rectangles and tiles, the requests of the panel and its planes (R2 to R13). -/

namespace Sys2Proof.Machine

/-! ### Rectangles and tiles -/

theorem Rect.has_iff (r : Rect) (x y : Nat) :
    r.has x y = true ↔ r.x ≤ x ∧ x < r.x + r.w ∧ r.y ≤ y ∧ y < r.y + r.h := by
  simp only [Rect.has, Bool.and_eq_true, decide_eq_true_eq, and_assoc]

theorem TileRect.has_iff (t : TileRect) (i j : Nat) :
    t.has i j = true ↔ t.col ≤ i ∧ i < t.col + t.cols ∧ t.row ≤ j ∧ j < t.row + t.rows := by
  simp only [TileRect.has, Bool.and_eq_true, decide_eq_true_eq, and_assoc]

/-- The extent of a tile rectangle holds the pixels of the panel that lie in its tiles (R3). -/
theorem PixelStore.extent_has (p : PixelStore) (t : TileRect) (x y : Nat) :
    (p.extent t).has x y = true ↔ x < p.width ∧ y < p.height ∧ t.has (x / 32) (y / 32) = true := by
  rw [Rect.has_iff, TileRect.has_iff]
  simp only [PixelStore.extent, Config.tileSide]
  omega

/-- The hull of a rectangle of one pixel or more is the set of the tiles its pixels lie in (R59). -/
theorem hullOf_has {r : Rect} (hw : 0 < r.w) (hh : 0 < r.h) (i j : Nat) :
    (hullOf r).has i j = true ↔ ∃ x y, r.has x y = true ∧ x / 32 = i ∧ y / 32 = j := by
  rw [TileRect.has_iff]
  simp only [hullOf, Config.tileSide]
  constructor
  · intro h
    refine ⟨max r.x (32 * i), max r.y (32 * j), ?_, by omega, by omega⟩
    rw [Rect.has_iff]
    omega
  · rintro ⟨x, y, hxy, rfl, rfl⟩
    rw [Rect.has_iff] at hxy
    omega

/-- Settles O20: the grid, the extents, the hulls and their overlap. -/
theorem tilesAndHulls : Obligations.TilesAndHulls :=
  ⟨fun p _ _ => ⟨fun x y hx hy => by omega, fun t _ _ x y => p.extent_has t x y⟩,
    fun _ hw hh => hullOf_has hw hh, TileRect.overlaps_iff⟩

/-! ### PANEL_SETUP -/

theorem Plane.level_nil (x y : Nat) : Plane.level [] x y = 15#4 := rfl

/-- Settles O19: the panel of the clamped geometry, or the refusal of a part at work. -/
theorem panelSetup : Obligations.PanelSetup := by
  intro s f h hk hn w hgt period cols rows idle
  have hexec : exec .panelSetup s = .next (answerFrame f (panelSetupBody f s.released)) :=
    fixedRequest_of_offers (kind := Kind.panelSetup) h hk hn
  have hidle : (s.released.rail.state = .off ∧ s.released.quiet) ↔ idle := and_congr_right fun _ => State.quiet_iff _
  rw [hexec, panelSetupBody]
  refine ⟨fun hi => ?_, fun hi => ?_⟩
  · rw [if_pos (hidle.2 hi), answerFrame_answerOk]
    refine ⟨.setup w hgt, ?_, rfl, rfl, rfl, rfl, rfl, fun x y => ⟨rfl, rfl, rfl⟩⟩
    simp only [List.append_assoc]
    rfl
  · rw [if_neg (hidle.not.2 hi), answerFrame_refuse]

/-! ### The checks of a rectangle -/

theorem PixelStore.inside_iff (p : PixelStore) (r : Rect) :
    p.inside r = true ↔ r.x + r.w ≤ p.width ∧ r.y + r.h ≤ p.height := by
  simp only [PixelStore.inside, Bool.and_eq_true, decide_eq_true_eq]

theorem rectRefusal_of_notSetUp {s : State} {r : Rect} (h : s.pixel.setUp = false) : rectRefusal s r = some .notSetUp :=
  if_pos (by rw [h]; rfl)

theorem rectRefusal_of_empty {s : State} {r : Rect} (h : s.pixel.setUp = true) (hr : r.w = 0 ∨ r.h = 0) :
    rectRefusal s r = some .emptyRect := by
  rw [rectRefusal, if_neg (by simp [h]), if_pos hr]

theorem rectRefusal_of_outside {s : State} {r : Rect} (h : s.pixel.setUp = true) (hw : 0 < r.w) (hh : 0 < r.h)
    (hout : s.pixel.width < r.x + r.w ∨ s.pixel.height < r.y + r.h) : rectRefusal s r = some .badRect := by
  have hinside : s.pixel.inside r = false := by
    rw [← Bool.not_eq_true, PixelStore.inside_iff]
    omega
  rw [rectRefusal, if_neg (by simp [h]), if_neg (by omega), if_pos (by rw [hinside]; rfl)]

theorem rectRefusal_of_inside {s : State} {r : Rect} (h : s.pixel.setUp = true) (hw : 0 < r.w) (hh : 0 < r.h)
    (hx : r.x + r.w ≤ s.pixel.width) (hy : r.y + r.h ≤ s.pixel.height) : rectRefusal s r = none := by
  have hinside : s.pixel.inside r = true := (PixelStore.inside_iff _ _).2 ⟨hx, hy⟩
  rw [rectRefusal, if_neg (by simp [h]), if_neg (by omega), if_neg (by simp [hinside])]

/-! ### FILL_IMAGE -/

theorem fillImageBody_of_refusal {f : Frame} {s : State} {st : Status} (h : rectRefusal s (rectAt f.payload 0) = some st) :
    fillImageBody f s = refuse st s := by
  simp only [fillImageBody, h]

theorem fillImageBody_of_none {f : Frame} {s : State} (h : rectRefusal s (rectAt f.payload 0) = none) :
    fillImageBody f s = answerOk (BitVec.ofNat 8 (min (u8At f.payload 8) 15) :: 0x00#8 ::
        encU32 ((rectAt f.payload 0).w * (rectAt f.payload 0).h))
      { s with pixel.image := s.pixel.image.paint (rectAt f.payload 0) fun _ _ => BitVec.ofNat 4 (min (u8At f.payload 8) 15) } := by
  simp only [fillImageBody, h]
  rfl

/-- Settles O22, check by check in the order of R11. -/
theorem imageFilled : Obligations.ImageFilled := by
  intro s f h hk hn hm hwidth
  have hexec : exec .fillImage s = .next (answerFrame f (fillImageBody f s.released)) :=
    fixedRequest_of_offers (kind := Kind.fillImage) h hk hn
  dsimp only
  rw [hexec]
  refine ⟨fun hset => ?_, fun hset hr => ?_, fun hset hw hh hout => ?_, fun hset hw hh hx hy => ?_⟩
  · rw [fillImageBody_of_refusal (s := s.released) (rectRefusal_of_notSetUp hset), answerFrame_refuse]
  · rw [fillImageBody_of_refusal (s := s.released) (rectRefusal_of_empty hset hr), answerFrame_refuse]
  · rw [fillImageBody_of_refusal (s := s.released) (rectRefusal_of_outside hset hw hh hout), answerFrame_refuse]
  · rw [fillImageBody_of_none (s := s.released) (rectRefusal_of_inside hset hw hh hx hy), answerFrame_answerOk]
    exact ⟨_, rfl, fun x y hxb => Plane.level_paint _ _ _ hm.1 (.inr (hx.trans hwidth)) x y hxb⟩

/-! ### The reads -/

/-- A run of equal blocks, block by block. -/
theorem drop_take_flatMap {α β : Type} {f : α → List β} {k : Nat} :
    ∀ {l : List α}, (∀ a ∈ l, (f a).length = k) → ∀ {n : Nat} {a : α}, l[n]? = some a → ((l.flatMap f).drop (k * n)).take k = f a
  | b :: l, hf, 0, a, h => by
    cases h
    rw [List.flatMap_cons, Nat.mul_zero, List.drop_zero, List.take_append_of_le_length (hf b List.mem_cons_self).ge,
      List.take_of_length_le (hf b List.mem_cons_self).le]
  | b :: l, hf, n + 1, a, h => by
    have hb := hf b List.mem_cons_self
    rw [List.flatMap_cons, show k * (n + 1) = (f b).length + k * n by rw [hb]; ring, List.drop_append,
      List.drop_of_length_le (Nat.le_add_right _ _), List.nil_append, Nat.add_sub_cancel_left]
    exact drop_take_flatMap (fun a ha => hf a (List.mem_cons_of_mem _ ha)) h

theorem getElem?_flatMap {α β : Type} {f : α → List β} {k : Nat} {l : List α} (hf : ∀ a ∈ l, (f a).length = k) {n : Nat}
    {a : α} (h : l[n]? = some a) {i : Nat} (hi : i < k) : (l.flatMap f)[k * n + i]? = (f a)[i]? := by
  rw [← drop_take_flatMap hf h, List.getElem?_take, if_pos hi, List.getElem?_drop]

theorem Rect.getElem?_pixels (r : Rect) {i j : Nat} (hi : i < r.w) (hj : j < r.h) :
    r.pixels[r.w * j + i]? = some (r.x + i, r.y + j) := by
  rw [Rect.pixels, getElem?_flatMap (k := r.w) (a := j) (by simp) (by simp [hj]) hi]
  simp [hi]

theorem length_packL4 (l : List Level) : (packL4 l).length = (l.length + 1) / 2 := by
  induction l using packL4.induct with
  | case1 => rfl
  | case2 a => simp [packL4]
  | case3 a b l ih =>
    rw [packL4, List.length_cons, ih, List.length_cons, List.length_cons]
    omega

theorem u8At_zero (b : Byte) (l : List Byte) : u8At (b :: l) 0 = b.toNat := rfl

theorem u8At_succ (b : Byte) (l : List Byte) (n : Nat) : u8At (b :: l) (n + 1) = u8At l n := rfl

theorem toNat_nibbles (a b : Level) : (a ++ b).toNat / 16 = a.toNat ∧ (a ++ b).toNat % 16 = b.toNat := by
  have ha := a.isLt
  have hb := b.isLt
  rw [BitVec.toNat_append, ← Nat.shiftLeft_add_eq_or_of_lt hb, Nat.shiftLeft_eq]
  omega

/-- Each level of a run packed two to a byte (R13). -/
theorem packL4_level (l : List Level) {n : Nat} {a : Level} (h : l[n]? = some a) : a.toNat =
    if n % 2 = 0 then u8At (packL4 l) (n / 2) / 16 else u8At (packL4 l) (n / 2) % 16 := by
  induction l using packL4.induct generalizing n with
  | case1 => cases h
  | case2 b =>
    obtain ⟨rfl, rfl⟩ : n = 0 ∧ b = a := by
      cases n with
      | zero => exact ⟨rfl, Option.some.inj h⟩
      | succ n => cases h
    exact (toNat_nibbles b 0#4).1.symm
  | case3 b c l ih =>
    rw [packL4]
    match n with
    | 0 =>
      cases h
      exact (toNat_nibbles a c).1.symm
    | 1 =>
      cases h
      exact (toNat_nibbles b a).2.symm
    | n + 2 =>
      have hmod : (n + 2) % 2 = n % 2 := by omega
      have hdiv : (n + 2) / 2 = n / 2 + 1 := by omega
      rw [hmod, hdiv, u8At_succ]
      exact ih h

/-- An odd count ends in four 0 bits (R13). -/
theorem packL4_odd (l : List Level) (h : l.length % 2 = 1) : u8At (packL4 l) (l.length / 2) % 16 = 0 := by
  induction l using packL4.induct with
  | case1 => cases h
  | case2 a =>
    have hfirst : [a].length / 2 = 0 := by simp
    rw [packL4, hfirst]
    exact (toNat_nibbles a 0#4).2
  | case3 a b l ih =>
    have hlength : (a :: b :: l).length / 2 = l.length / 2 + 1 := by
      rw [List.length_cons, List.length_cons]
      omega
    rw [packL4, hlength, u8At_succ]
    refine ih ?_
    rw [List.length_cons, List.length_cons] at h
    omega

theorem exec_read {s : State} {f : Frame} {c : Instr} {plane : Plane} (h : s.offers f) (hn : f.payload.length = 8)
    (hc : c = .readImage ∧ f.kind = 0x13#8 ∧ plane = s.pixel.image ∨
      c = .readPanel ∧ f.kind = 0x14#8 ∧ plane = s.pixel.believed) :
    ∃ p : PixelStore → Plane, p s.pixel = plane ∧ exec c s = .next (answerFrame f (readBody p f s.released)) := by
  rcases hc with ⟨rfl, hk, rfl⟩ | ⟨rfl, hk, rfl⟩
  · exact ⟨_, rfl, fixedRequest_of_offers (kind := Kind.readImage) h hk hn⟩
  · exact ⟨_, rfl, fixedRequest_of_offers (kind := Kind.readPanel) h hk hn⟩

theorem readBody_of_refusal {plane : PixelStore → Plane} {f : Frame} {s : State} {st : Status}
    (h : rectRefusal s (rectAt f.payload 0) = some st) : readBody plane f s = refuse st s := by
  simp only [readBody, h]

theorem readBody_of_none {plane : PixelStore → Plane} {f : Frame} {s : State} (h : rectRefusal s (rectAt f.payload 0) = none) :
    readBody plane f s =
      if (rectAt f.payload 0).x % 2 ≠ 0 ∨ 8192 < (rectAt f.payload 0).w * (rectAt f.payload 0).h then refuse .badRect s
      else answerOk (encRect (rectAt f.payload 0) ++ packL4 ((plane s.pixel).levels (rectAt f.payload 0))) s := by
  simp only [readBody, h]
  rfl

/-- Settles O23: the checks of R12 in order, and the packing of R13. -/
theorem levelsRead : Obligations.LevelsRead := by
  intro s f c plane h hn hc
  obtain ⟨p, hp, hexec⟩ := exec_read h hn hc
  have hlength : (plane.levels (rectAt f.payload 0)).length = (rectAt f.payload 0).w * (rectAt f.payload 0).h := by
    rw [Plane.levels, List.length_map, Rect.length_pixels]
  dsimp only
  rw [hexec]
  refine ⟨fun hset => ?_, fun hset hr => ?_, fun hset hw hh hout => ?_, fun hset hw hh hx hy heven hcount => ?_⟩
  · rw [readBody_of_refusal (s := s.released) (rectRefusal_of_notSetUp hset), answerFrame_refuse]
  · rw [readBody_of_refusal (s := s.released) (rectRefusal_of_empty hset hr), answerFrame_refuse]
  · by_cases hin : (rectAt f.payload 0).x + (rectAt f.payload 0).w ≤ s.pixel.width ∧
        (rectAt f.payload 0).y + (rectAt f.payload 0).h ≤ s.pixel.height
    · rw [readBody_of_none (s := s.released) (rectRefusal_of_inside hset hw hh hin.1 hin.2), if_pos (by omega), answerFrame_refuse]
    · rw [readBody_of_refusal (s := s.released) (rectRefusal_of_outside hset hw hh (by simp only [State.released_pixel]; omega)),
        answerFrame_refuse]
  · rw [readBody_of_none (s := s.released) (rectRefusal_of_inside hset hw hh hx hy), if_neg (by omega), answerFrame_answerOk,
      State.released_pixel, hp]
    refine ⟨packL4 (plane.levels (rectAt f.payload 0)), rfl, ?_, fun i j hi hj => ?_, fun hodd => ?_⟩
    · rw [length_packL4, hlength]
    · refine packL4_level _ ?_
      rw [Plane.levels, List.getElem?_map, Nat.mul_comm, Rect.getElem?_pixels _ hi hj]
      rfl
    · rw [← hlength]
      exact packL4_odd _ (hlength ▸ hodd)

end Sys2Proof.Machine
end

section
/-! PROOF. WRITE_IMAGE and its formats (R8 to R10), and the soft reset (R18, R78, R114, R150). -/

namespace Sys2Proof.Machine

/-! ### The pixel formats -/

theorem PixelFormat.aligned_l4 (r : Rect) : PixelFormat.l4.aligned r = true ↔ r.x % 2 = 0 ∧ r.w % 2 = 0 := by
  simp [PixelFormat.aligned]

theorem PixelFormat.aligned_l1 (r : Rect) : PixelFormat.l1.aligned r = true ↔ r.x % 8 = 0 ∧ r.w % 8 = 0 := by
  simp [PixelFormat.aligned]

theorem PixelFormat.decodeLevel_l4 (data : List Byte) (n : Nat) : (PixelFormat.l4.decodeLevel data n).toNat =
    if n % 2 = 0 then u8At data (n / 2) / 16 else u8At data (n / 2) % 16 := by
  have hb := (data.getD (n / 2) 0#8).isLt
  simp only [PixelFormat.decodeLevel, u8At]
  split
  · rw [BitVec.extractLsb'_toNat, Nat.shiftRight_eq_div_pow]
    omega
  · rw [BitVec.extractLsb'_toNat, Nat.shiftRight_zero]

theorem PixelFormat.decodeLevel_l1 (data : List Byte) (n : Nat) : (PixelFormat.l1.decodeLevel data n).toNat =
    if u8At data (n / 8) / 2 ^ (7 - n % 8) % 2 = 1 then 15 else 0 := by
  have hbit : (data.getD (n / 8) 0#8).getLsbD (7 - n % 8) = decide (u8At data (n / 8) / 2 ^ (7 - n % 8) % 2 = 1) :=
    Nat.testBit_eq_decide_div_mod_eq
  simp only [PixelFormat.decodeLevel, hbit, decide_eq_true_eq]
  split <;> rfl

theorem PixelFormat.decodeLevel_l8 (data : List Byte) (n : Nat) :
    (PixelFormat.l8.decodeLevel data n).toNat = u8At data n / 16 := by
  have hb := (data.getD n 0#8).isLt
  simp only [PixelFormat.decodeLevel, u8At]
  rw [BitVec.extractLsb'_toNat, Nat.shiftRight_eq_div_pow]
  omega

/-! ### WRITE_IMAGE -/

theorem execWriteImage_of_offers {s : State} {f : Frame} (h : s.offers f) (hk : f.kind = 0x11#8) :
    exec .writeImage s = .next (answerFrame f (writeImageBody f s.released)) :=
  request_of_offers (kind := Kind.writeImage) h hk

/-- The checks that look at the rectangle, once the format is known (R9, R10). -/
theorem writeImageBody_of_format {f : Frame} {s : State} {fmt : PixelFormat} (hlen : 10 ≤ f.payload.length)
    (hset : s.pixel.setUp = true) (hfmt : PixelFormat.ofCode (u8At f.payload 0) = some fmt) : writeImageBody f s =
      if (rectAt f.payload 2).w = 0 ∨ (rectAt f.payload 2).h = 0 then refuse .emptyRect s
      else if !s.pixel.inside (rectAt f.payload 2) then refuse .badRect s
      else if !fmt.aligned (rectAt f.payload 2) then refuse .badRect s
      else if 4096 < fmt.dataBytes (rectAt f.payload 2) then refuse .badLength s
      else if f.payload.length ≠ 10 + fmt.dataBytes (rectAt f.payload 2) then refuse .badLength s
      else answerOk (encU32 ((rectAt f.payload 2).w * (rectAt f.payload 2).h)) { s with
        pixel.image := s.pixel.image.paint (rectAt f.payload 2) fun x y =>
          fmt.decodeLevel (f.payload.drop 10) ((rectAt f.payload 2).pixelNumber x y) } := by
  unfold writeImageBody
  dsimp only
  rw [if_neg (by omega), if_neg (by simp [hset]), hfmt]
  exact rfl

/-- The refusals of a rectangle in one format, `misaligned` being what its alignment forbids (TABLE 1-3). -/
theorem writeImage_refusals {s : State} {f : Frame} (h : s.offers f) (hk : f.kind = 0x11#8) (fmt : PixelFormat)
    {misaligned : Prop} (hmis : misaligned ↔ ¬ fmt.aligned (rectAt f.payload 2) = true) (hlen : 10 ≤ f.payload.length)
    (hset : s.pixel.setUp = true) (hfmt : PixelFormat.ofCode (u8At f.payload 0) = some fmt) :
    ((rectAt f.payload 2).w = 0 ∨ (rectAt f.payload 2).h = 0 →
      exec .writeImage s = .next (s.released.replied f .emptyRect [])) ∧
    (0 < (rectAt f.payload 2).w → 0 < (rectAt f.payload 2).h →
      (s.pixel.width < (rectAt f.payload 2).x + (rectAt f.payload 2).w ∨
          s.pixel.height < (rectAt f.payload 2).y + (rectAt f.payload 2).h ∨ misaligned →
        exec .writeImage s = .next (s.released.replied f .badRect [])) ∧
      ((rectAt f.payload 2).x + (rectAt f.payload 2).w ≤ s.pixel.width →
        (rectAt f.payload 2).y + (rectAt f.payload 2).h ≤ s.pixel.height → ¬ misaligned →
        4096 < fmt.dataBytes (rectAt f.payload 2) ∨ f.payload.length ≠ 10 + fmt.dataBytes (rectAt f.payload 2) →
        exec .writeImage s = .next (s.released.replied f .badLength []))) := by
  rw [execWriteImage_of_offers h hk, writeImageBody_of_format (s := s.released) hlen hset hfmt, State.released_pixel]
  refine ⟨fun hempty => ?_, fun hw hh => ⟨fun hbad => ?_, fun hx hy halign hcount => ?_⟩⟩
  · rw [if_pos hempty, answerFrame_refuse]
  · rw [if_neg (by omega)]
    by_cases hin : s.pixel.inside (rectAt f.payload 2) = true
    · have halign : fmt.aligned (rectAt f.payload 2) = false := by
        rw [PixelStore.inside_iff] at hin
        rw [← Bool.not_eq_true, ← hmis]
        rcases hbad with hbad | hbad | hbad
        · omega
        · omega
        · exact hbad
      rw [if_neg (by simp [hin]), if_pos (by simp [halign]), answerFrame_refuse]
    · rw [if_pos (by simp [hin]), answerFrame_refuse]
  · have hin : s.pixel.inside (rectAt f.payload 2) = true := (PixelStore.inside_iff _ _).2 ⟨hx, hy⟩
    rw [if_neg (by omega), if_neg (by simp [hin]), if_neg (by simpa using not_not.1 (hmis.not.1 halign))]
    by_cases hmax : 4096 < fmt.dataBytes (rectAt f.payload 2)
    · rw [if_pos hmax, answerFrame_refuse]
    · rw [if_neg hmax, if_pos (hcount.resolve_left hmax), answerFrame_refuse]

/-- What a request that passes the checks writes in one format (R8, R10). -/
theorem writeImage_written {s : State} {f : Frame} (h : s.offers f) (hk : f.kind = 0x11#8) (fmt : PixelFormat)
    (hm : s.memoryCanonical) (hwidth : s.pixel.width ≤ 2048) (hlen : 10 ≤ f.payload.length)
    (hset : s.pixel.setUp = true) (hfmt : PixelFormat.ofCode (u8At f.payload 0) = some fmt)
    (hw : 0 < (rectAt f.payload 2).w) (hh : 0 < (rectAt f.payload 2).h)
    (hx : (rectAt f.payload 2).x + (rectAt f.payload 2).w ≤ s.pixel.width)
    (hy : (rectAt f.payload 2).y + (rectAt f.payload 2).h ≤ s.pixel.height)
    (halign : fmt.aligned (rectAt f.payload 2) = true) (hmax : fmt.dataBytes (rectAt f.payload 2) ≤ 4096)
    (hcount : f.payload.length = 10 + fmt.dataBytes (rectAt f.payload 2)) :
    ∃ image : Plane,
      exec .writeImage s = .next (({ s.released with pixel.image := image } : State).replied f .ok
        (encU32 ((rectAt f.payload 2).w * (rectAt f.payload 2).h))) ∧
      Memory.wf white image = true ∧
      ∀ x y, x < 2048 → image.level x y = if (rectAt f.payload 2).has x y then
          fmt.decodeLevel (f.payload.drop 10) ((y - (rectAt f.payload 2).y) * (rectAt f.payload 2).w +
            (x - (rectAt f.payload 2).x))
        else s.pixel.image.level x y := by
  have hin : s.pixel.inside (rectAt f.payload 2) = true := (PixelStore.inside_iff _ _).2 ⟨hx, hy⟩
  rw [execWriteImage_of_offers h hk, writeImageBody_of_format (s := s.released) hlen hset hfmt, State.released_pixel,
    if_neg (by omega), if_neg (by simp [hin]), if_neg (by simp [halign]), if_neg (by omega), if_neg (by omega),
    answerFrame_answerOk]
  exact ⟨_, rfl, Plane.wf_paint _ _ _ hm.1, fun x y hxb => Plane.level_paint _ _ _ hm.1 (.inr (hx.trans hwidth)) x y hxb⟩

/-- Settles O21: the checks before the format, and format by format those behind it, the levels and their codes. -/
theorem imageWritten : Obligations.ImageWritten := by
  refine ⟨fun s f h hk => ⟨fun hlen => ?_, fun hlen hset => ?_, fun hlen hset hcode => ?_, fun fmt => ?_⟩,
    fun s f fmt h hk hm hwidth => ?_, fun data n => ⟨PixelFormat.decodeLevel_l4 data n, PixelFormat.decodeLevel_l1 data n,
      PixelFormat.decodeLevel_l8 data n⟩⟩
  · rw [execWriteImage_of_offers h hk, writeImageBody, if_pos hlen, answerFrame_refuse]
  · rw [execWriteImage_of_offers h hk, writeImageBody, if_neg (by omega), if_pos (by simp [hset]), answerFrame_refuse]
  · obtain ⟨-, -, -, -, -, -, hnone, -⟩ := ofCode_eq_none (u8At f.payload 0)
    rw [execWriteImage_of_offers h hk, writeImageBody, if_neg (by omega), if_neg (by simp [hset])]
    simp only [hnone.2 hcode, answerFrame_refuse]
  · dsimp only
    intro hlen hset hcode
    cases fmt with
    | l4 =>
      refine writeImage_refusals h hk .l4 ?_ hlen hset (by rw [hcode]; rfl)
      rw [PixelFormat.aligned_l4]
      omega
    | l1 =>
      refine writeImage_refusals h hk .l1 ?_ hlen hset (by rw [hcode]; rfl)
      rw [PixelFormat.aligned_l1]
      omega
    | l8 => exact writeImage_refusals h hk .l8 (by simp [PixelFormat.aligned]) hlen hset (by rw [hcode]; rfl)
  · dsimp only
    intro hlen hset hcode hw hh hx hy halign
    cases fmt with
    | l4 =>
      exact writeImage_written h hk .l4 hm hwidth hlen hset (by rw [hcode]; rfl) hw hh hx hy
        ((PixelFormat.aligned_l4 _).2 halign)
    | l1 =>
      exact writeImage_written h hk .l1 hm hwidth hlen hset (by rw [hcode]; rfl) hw hh hx hy
        ((PixelFormat.aligned_l1 _).2 halign)
    | l8 => exact writeImage_written h hk .l8 hm hwidth hlen hset (by rw [hcode]; rfl) hw hh hx hy rfl

/-! ### Tiles released by the end of slots without completion -/

/-- The record of a tile once its owner has ended without completing: UNKNOWN with rest 0, its account kept (R78, R91). -/
def TileRecord.dropped (r : TileRecord) : TileRecord := { r with owner := none, condition := .unknown, rest := 0 }

/-- Every tile is as it was, or was owned and is released. -/
def State.tilesDropped (s t : State) : Prop :=
  ∀ x y, x < s.pixel.tileCols → y < s.pixel.tileRows →
    t.tile x y = s.tile x y ∨ (s.tile x y).owner ≠ none ∧ t.tile x y = (s.tile x y).dropped

theorem State.tilesDropped.refl (s : State) : s.tilesDropped s := fun _ _ _ _ => .inl rfl

/-- The release of the hull of one more active slot. -/
theorem State.tilesDropped.release {s t u : State} (h : s.tilesDropped t) (ht : t.ownersSound)
    (hcols : t.pixel.tileCols = s.pixel.tileCols) (hrows : t.pixel.tileRows = s.pixel.tileRows) {i : Fin 16} {sl : Slot}
    (hsl : t.frame.slots[i] = some sl) (htiles : u.ghost.tiles = (t.releaseTiles sl.hull (some .unknown)).ghost.tiles)
    (hu : u.pixel.tileCols = t.pixel.tileCols) : s.tilesDropped u := by
  intro x y hx hy
  obtain ⟨hl, ho⟩ := ht
  rw [← hcols] at hx
  rw [← hrows] at hy
  have htile : u.tile x y = (t.releaseTiles sl.hull (some .unknown)).tile x y := State.tile_congr htiles hu x y
  rw [htile, State.tile_releaseTiles t sl.hull _ x y hl hx hy]
  rw [hcols] at hx
  rw [hrows] at hy
  split
  next hhas =>
    have hown : (t.tile x y).owner = some i := (ho x y i (hcols ▸ hx) (hrows ▸ hy)).2 ⟨sl, hsl, hhas⟩
    rcases h x y hx hy with hsame | ⟨-, hdropped⟩
    · rw [hsame] at hown
      exact .inr ⟨by simp [hown], by rw [hsame]; rfl⟩
    · rw [hdropped] at hown
      cases hown
  next => exact h x y hx hy

/-- Once no slot is active every tile that was owned is released, and every other is as it was. -/
theorem State.tilesDropped.all {s t : State} (h : s.tilesDropped t) (ht : t.ownersSound)
    (hcols : t.pixel.tileCols = s.pixel.tileCols) (hrows : t.pixel.tileRows = s.pixel.tileRows)
    (hfree : ∀ i : Fin 16, t.frame.slots[i] = none) (x y : Nat) (hx : x < s.pixel.tileCols) (hy : y < s.pixel.tileRows) :
    t.tile x y = if (s.tile x y).owner = none then s.tile x y
      else { s.tile x y with owner := none, condition := .unknown, rest := 0 } := by
  have hunowned : (t.tile x y).owner = none := Option.eq_none_iff_forall_not_mem.2 fun k hk => by
    obtain ⟨sl, hsl, -⟩ := (ht.2 x y k (hcols ▸ hx) (hrows ▸ hy)).1 hk
    cases (hfree k).symm.trans hsl
  rcases h x y hx hy with hsame | ⟨howned, hdropped⟩
  · rw [hsame] at hunowned ⊢
    rw [if_pos hunowned]
  · rw [if_neg howned, hdropped, TileRecord.dropped]

/-! ### The soft reset -/

theorem State.softReset_tilesDropped {s : State} (hs : s.ownersSound) : s.tilesDropped s.softReset := by
  have hfreed := State.freeAll_keeps (fun t => s.tilesDropped t ∧ t.ownersSound ∧ t.pixel.tileCols = s.pixel.tileCols ∧
      t.pixel.tileRows = s.pixel.tileRows)
    (fun t i sl hsl ⟨hdropped, howners, hcols, hrows⟩ => ⟨hdropped.release howners hcols hrows hsl rfl rfl,
      howners.release (some .unknown) hsl rfl rfl rfl fun k => FrameEngine.slots_setSlot _ _ _ _, hcols, hrows⟩)
    ⟨.refl s, hs, rfl, rfl⟩
  exact hfreed.1

/-- Of the Frame Engine a soft reset keeps the period and the frame counter (R114). -/
theorem State.softReset_frame (s : State) : ∃ slots, s.softReset.frame =
    { s.frame with slots := slots, admissions := [], idle := 0, phase := .stopped, driveActive := false } := by
  have hfreed : ∃ slots, (s.frame.active.foldl State.freeSlotSilently s).frame = { s.frame with slots := slots } := by
    refine foldl_keeps (fun t => ∃ slots, t.frame = { s.frame with slots := slots }) State.freeSlotSilently _
      (fun t q _ ⟨slots, ht⟩ => ?_) ⟨_, rfl⟩
    have hone : (t.freeSlotSilently q).frame = t.frame.setSlot q.1 none := rfl
    rw [hone, ht]
    exact ⟨_, rfl⟩
  obtain ⟨slots, hslots⟩ := hfreed
  refine ⟨slots, ?_⟩
  change { (s.frame.active.foldl State.freeSlotSilently s).frame with
    admissions := [], idle := 0, phase := .stopped, driveActive := false } = _
  rw [hslots]

theorem State.softReset_policy (s : State) : s.softReset.ghost.policy = s.ghost.policy :=
  foldl_keeps (fun t => t.ghost.policy = s.ghost.policy) State.freeSlotSilently _ (fun _ _ _ ht => ht) rfl

theorem State.softReset_wave (s : State) : s.softReset.wave = { s.wave with staging := [], held := none } := by
  simp [State.softReset]

theorem State.softReset_temp (s : State) : s.softReset.temp = s.temp.softReset := by
  simp [State.softReset]

theorem State.softReset_rail (s : State) : s.softReset.rail = s.rail.softReset := by
  simp [State.softReset]

theorem State.softReset_notice (s : State) :
    s.softReset.notice = { s.notice with kinds := 0#9, records := [], waits := [], ended := [] } := by
  simp [State.softReset]

theorem State.softReset_framing (s : State) : s.softReset.link.framing = s.link.framing.softReset := by
  simp [State.softReset, MessageLink.drawHold]

/-- A reply placed in an empty queue makes the line active in both modes (R129, R130). -/
theorem State.pushReply_attn_of_empty {s : State} (r : Reply) (h : s.link.replies = []) :
    (s.pushReply r).link.attn = true := by
  cases hmode : s.notice.mode <;> simp [State.pushReply, State.drawAttn, State.attnCondition, hmode, h]

/-- Settles O18: the blocks one by one, and the tiles through the run of silent ends. -/
theorem softReset : Obligations.SoftReset := by
  have hexec {s : State} {f : Frame} (h : s.offers f) (hk : f.kind = 0x02#8) (hp : f.payload = []) :
      exec .resetPart s = .next (s.released.softReset.replied f .ok []) :=
    fixedRequest_of_offers (kind := Kind.resetPart) h hk (by rw [hp]; rfl)
  refine ⟨fun s f h hk hp hs => ⟨_, hexec h hk hp, ?_⟩, fun s t f h hk hp hs ht => ?_⟩
  · obtain ⟨slots, hframe⟩ := s.released.softReset_frame
    obtain ⟨next, hpixel⟩ := s.released.softReset_pixel
    have hslots : ∀ i : Fin 16, s.released.softReset.frame.slots[i] = none := s.released.softReset_slots
    have hplane : s.released.softReset.planeSound := State.planeSound.softReset (s := s.released) hs
    change (∀ i : Fin 16, s.released.softReset.frame.slots[i] = none) ∧ s.released.softReset.frame.admissions = [] ∧
      s.released.softReset.frame.idle = 0 ∧ s.released.softReset.frame.phase = .stopped ∧
      s.released.softReset.frame.driveActive = false ∧ s.released.softReset.frame.period = s.frame.period ∧
      s.released.softReset.frame.counter = s.frame.counter ∧ _
    refine ⟨hslots, rfl, rfl, rfl, rfl, by rw [hframe]; rfl, by rw [hframe]; rfl, rfl, s.released.softReset_policy,
      ?_, fun x y hx => ?_, ?_, ?_, ?_, ?_, rfl, ?_, ?_, ?_, ?_, ?_⟩
    · change s.released.softReset.pixel = { s.pixel with next := s.released.softReset.pixel.next }
      rw [hpixel]
      rfl
    · refine (hplane.agree x y hx fun i sl hsl => by cases (hslots i).symm.trans hsl).trans ?_
      rw [hpixel]
      rfl
    · exact s.released.softReset_wave
    · exact s.released.softReset_temp
    · exact s.released.softReset_rail
    · exact s.released.softReset_notice
    · exact s.released.softReset_rxFree
    · exact s.released.softReset_hold
    · change [({ kind := f.kind, tag := f.tag, status := .ok, payload := [] } : Reply)] = _
      rw [hk]
    · exact State.pushReply_attn_of_empty _ rfl
    · refine s.released.softReset_framing.trans ?_
      rw [State.released_framing]
      cases s.link.framing <;> rfl
  · cases (hexec h hk hp).symm.trans ht
    have hdropped := State.softReset_tilesDropped (s := s.released) hs.2.1
    have howners : s.released.softReset.ownersSound := State.ownersSound.softReset (s := s.released) hs.2.1
    obtain ⟨next, hpixel⟩ := s.released.softReset_pixel
    refine ⟨howners.1.trans ?_, hdropped.all howners (by rw [hpixel]) (by rw [hpixel]) s.released.softReset_slots⟩
    rw [hpixel, hs.2.1.1]
    rfl

end Sys2Proof.Machine
end

section
/-! PROOF. Chapter 5: the decision of the plan, the charges it projects, the filling of a slot, and the tiles reported and marked
(R81 to R89, R92 to R94). -/

namespace Sys2Proof.Machine

/-! ### The decision of the plan -/

theorem State.escalates_iff (s : State) (e : PendingEntry) (b : Fin 8) : s.escalates e b = true ↔
    ∃ i j, e.hull.has i j = true ∧
      ((s.tile i j).condition = .unknown ∨ s.ghost.policy.residueLimit ≤ s.projectedResidue e i j ∨
        (s.ghost.policy.chargeLimit : Int) ≤ |s.projectedCharge e b i j|) := by
  have hcharge (i j : Nat) : s.ghost.policy.chargeLimit ≤ (s.projectedCharge e b i j).natAbs ↔
      (s.ghost.policy.chargeLimit : Int) ≤ |s.projectedCharge e b i j| := by
    rw [Int.abs_eq_natAbs, Int.ofNat_le]
  simp only [State.escalates, List.any_eq_true, Prod.exists, TileRect.mem_tiles, State.tileEscalates, Bool.or_eq_true,
    decide_eq_true_eq, hcharge, or_assoc]

/-- The plan of a partial mode whose set is installed and that needs no escalation (R85). -/
theorem State.plan_of_not_escalates {s : State} {e : PendingEntry} {b : Fin 8} (hset : s.wave.set? e.mode b ≠ none)
    (hmode : e.mode ≠ .clear) (h : s.escalates e b = false) : s.plan e b = .drive e.mode false := by
  rw [State.plan, if_neg (by simpa using hset), if_neg hmode, if_pos (by simp [h])]

/-- The plan of a partial mode whose set is installed and that needs escalation, by its policy (R86). -/
theorem State.plan_of_escalates {s : State} {e : PendingEntry} {b : Fin 8} (hset : s.wave.set? e.mode b ≠ none)
    (hmode : e.mode ≠ .clear) (h : s.escalates e b = true) :
    (e.policy = .auto → s.plan e b =
      if (s.wave.set? .clear b).isNone then .refused .noWaveform .clear true else .drive .clear true) ∧
    (e.policy = .strict → s.plan e b = .refused .refusedGhost e.mode false) ∧
    (e.policy = .force → s.plan e b = .drive e.mode false) := by
  refine ⟨fun hpol => ?_, fun hpol => ?_, fun hpol => ?_⟩ <;>
    rw [State.plan, if_neg (by simpa using hset), if_neg hmode, if_neg (by simp [h]), hpol]

/-- Settles O45, case by case of TABLE 5-4. -/
theorem planDecided : Obligations.PlanDecided := by
  intro s e b needed
  have hneeded : s.escalates e b = true ↔ needed := s.escalates_iff e b
  refine ⟨fun hset => ?_, fun hset => ⟨fun hmode => ?_, fun hmode hno => ?_, fun hmode hyes hpol hclear => ?_,
    fun hmode hyes hpol hclear => ?_, fun hmode hyes hpol => ?_, fun hmode hyes hpol => ?_⟩⟩
  · rw [State.plan, if_pos (by simp [hset])]
  · rw [State.plan, if_neg (by simpa using hset), if_pos hmode]
  · exact State.plan_of_not_escalates hset hmode (by simpa using hneeded.not.2 hno)
  all_goals
    obtain ⟨hauto, hstrict, hforce⟩ := State.plan_of_escalates hset hmode (hneeded.2 hyes)
  · rw [hauto hpol, if_neg (by simpa using hclear)]
  · rw [hauto hpol, if_pos (by simp [hclear])]
  · exact hstrict hpol
  · exact hforce hpol

/-! ### The charges -/

theorem State.pairCharge_of_set {s : State} {m : Mode} {b : Fin 8} {w : WaveformSet} (h : s.wave.set? m b = some w)
    (u v : Level) : s.pairCharge m b u v = w.charge u v := by
  simp only [State.pairCharge, h]

/-- Settles O47: the sums as they are defined, and the two ends of saturation. -/
theorem chargeProjected : Obligations.ChargeProjected := by
  refine ⟨fun s m b w u v h => State.pairCharge_of_set h u v, fun s e b i j => ?_⟩
  intro tile inside total clear changes
  have htotal : s.projectedCharge e b i j = max (-32768) (min 32767 total) := rfl
  refine ⟨fun h => ?_, fun hmin hmax => ?_, fun h => ?_, rfl, rfl, fun hw => ?_, fun m => rfl⟩
  · rw [htotal]
    omega
  · rw [htotal]
    omega
  · rw [htotal]
    omega
  · exact increment_le_of_le hw (s.changeCount_le e .clear i j)

/-! ### The filling of a slot -/

/-- Settles O44: the slot, the tiles of the hull and the levels latched. -/
theorem slotFilled : Obligations.SlotFilled := by
  intro s i e eff esc b w hm hwidth hkept hlength hset t extent
  have hslot : t.frame.slots[i] = some (s.admittedSlot e eff esc b) :=
    (FrameEngine.slots_setSlot _ _ _ _).trans (if_pos rfl)
  refine ⟨rfl, rfl, fun j hj => (FrameEngine.slots_setSlot _ _ _ _).trans (if_neg hj.symm), ?_, fun x y hx hy => ?_,
    fun x y hx => ?_⟩
  · rw [hslot, State.admittedSlot, hset]
    rfl
  · have htile : t.tile x y = (s.mapTiles e.hull fun x y r => { s.plannedTile e eff b x y r with owner := some i }).tile x y :=
      rfl
    rw [htile, State.tile_mapTiles _ _ _ _ _ hlength hx hy]
    split
    · unfold State.plannedTile
      split <;> rfl
    · rfl
  · have hdrive : s.pixel.driveSet (s.admittedSlot e eff esc b) = if eff = .clear then extent else e.rect := rfl
    have hbound := PixelStore.driveSet_bounded (sl := s.admittedSlot e eff esc b) hkept hwidth
    have hnext : t.pixel.next.level x y = if (s.pixel.driveSet (s.admittedSlot e eff esc b)).has x y = true
        then s.latchLevel e eff x y else s.pixel.next.level x y :=
      Plane.level_paint _ _ _ hm.2.2.1 hbound x y hx
    rw [hnext, hdrive, State.latchLevel, State.target]
    obtain ⟨hright, hbottom, hw, hh, hhull⟩ := hkept
    have hcover : e.rect.has x y = true → extent.has x y = true := fun hin => by
      rw [PixelStore.extent_has, hhull, hullOf_has hw hh]
      have hin' := (Rect.has_iff _ _ _).1 hin
      exact ⟨by omega, by omega, x, y, hin, rfl, rfl⟩
    by_cases hclear : eff = .clear
    · rw [if_pos hclear]
      by_cases hin : e.rect.has x y = true
      · rw [if_pos (hcover hin), if_pos hin, if_pos hin]
      · simp only [if_neg hin, hclear, true_and]
    · rw [if_neg hclear]
      by_cases hin : e.rect.has x y = true
      · rw [if_pos hin, if_pos hin, if_pos hin]
      · rw [if_neg hin, if_neg hin, if_neg fun h => hclear h.1]

/-! ### QUERY_TILES and MARK_TILES -/

theorem PixelStore.onGrid_iff (p : PixelStore) (t : TileRect) :
    p.onGrid t = true ↔ t.col + t.cols ≤ p.tileCols ∧ t.row + t.rows ≤ p.tileRows := by
  simp only [PixelStore.onGrid, Bool.and_eq_true, decide_eq_true_eq]

theorem TileRect.length_tiles (t : TileRect) : t.tiles.length = t.cols * t.rows := by
  simp [TileRect.tiles, List.length_flatMap, Nat.mul_comm]

theorem TileRect.getElem?_tiles (t : TileRect) {i j : Nat} (hi : i < t.cols) (hj : j < t.rows) :
    t.tiles[t.cols * j + i]? = some (t.col + i, t.row + j) := by
  rw [TileRect.tiles, getElem?_flatMap (k := t.cols) (a := j) (by simp) (by simp [hj]) hi]
  simp [hi]

theorem length_encTile (t : TileRecord) : (encTile t).length = 8 := by
  unfold encTile encSlotNo
  split <;> rfl

theorem execQueryTiles_of_offers {s : State} {f : Frame} (h : s.offers f) (hk : f.kind = 0x50#8) (hn : f.payload.length = 4) :
    exec .queryTiles s = .next (answerFrame f (queryTilesBody f s.released)) :=
  fixedRequest_of_offers (kind := Kind.queryTiles) h hk hn

theorem execMarkTiles_of_offers {s : State} {f : Frame} (h : s.offers f) (hk : f.kind = 0x51#8) (hn : f.payload.length = 6) :
    exec .markTiles s = .next (answerFrame f (markTilesBody f s.released)) :=
  fixedRequest_of_offers (kind := Kind.markTiles) h hk hn

/-- Settles O48: the checks of both requests in their order, the records in their blocks, and the tiles marked. -/
theorem tilesReportedAndMarked : Obligations.TilesReportedAndMarked := by
  have hmax : Config.maxQueryTiles = 256 := rfl
  refine ⟨fun s f h hk hn => ?_, fun s f h hk hn hl => ?_⟩
  · dsimp only
    rw [execQueryTiles_of_offers h hk hn, queryTilesBody]
    refine ⟨fun hset => ?_, fun hset hempty => ?_, fun hset hc hr => ⟨fun hout => ?_, fun hx hy => ⟨fun hmany => ?_,
      fun hfew => ?_⟩⟩⟩
    · rw [if_pos (by simp [hset]), answerFrame_refuse]
    · rw [if_neg (by simp [hset]), if_pos hempty, answerFrame_refuse]
    · have hgrid : s.pixel.onGrid (tileRectAt f.payload 0) = false := by
        rw [← Bool.not_eq_true, PixelStore.onGrid_iff]
        omega
      rw [if_neg (by simp [hset]), if_neg (by omega), if_pos (by simp [hgrid]), answerFrame_refuse]
    · have hgrid : s.pixel.onGrid (tileRectAt f.payload 0) = true := (PixelStore.onGrid_iff _ _).2 ⟨hx, hy⟩
      rw [if_neg (by simp [hset]), if_neg (by omega), if_neg (by simp [hgrid]), if_pos (by omega), answerFrame_refuse]
    · have hgrid : s.pixel.onGrid (tileRectAt f.payload 0) = true := (PixelStore.onGrid_iff _ _).2 ⟨hx, hy⟩
      rw [if_neg (by simp [hset]), if_neg (by omega), if_neg (by simp [hgrid]), if_neg (by omega), answerFrame_answerOk]
      refine ⟨_, rfl, ?_, fun i j hi hj => ?_⟩
      · simp [List.length_flatMap, length_encTile, TileRect.length_tiles, Nat.mul_comm]
      · rw [Nat.mul_comm j, drop_take_flatMap (fun q _ => length_encTile _) (TileRect.getElem?_tiles _ hi hj)]
        change encTile (s.tile _ _) = _
        unfold encTile encSlotNo
        cases (s.tile ((tileRectAt f.payload 0).col + i) ((tileRectAt f.payload 0).row + j)).owner <;>
          cases (s.tile ((tileRectAt f.payload 0).col + i) ((tileRectAt f.payload 0).row + j)).condition <;> rfl
  · dsimp only
    rw [execMarkTiles_of_offers h hk hn, markTilesBody]
    refine ⟨fun hset => ?_, fun hset haction => ?_, fun hset haction hempty => ?_, fun hset haction hc hr =>
      ⟨fun hout => ?_, fun hx hy => ?_⟩⟩
    · rw [if_pos (by simp [hset]), answerFrame_refuse]
    · rw [if_neg (by simp [hset]), if_pos haction, answerFrame_refuse]
    · rw [if_neg (by simp [hset]), if_neg (by omega), if_pos hempty, answerFrame_refuse]
    · have hgrid : s.pixel.onGrid (tileRectAt f.payload 0) = false := by
        rw [← Bool.not_eq_true, PixelStore.onGrid_iff]
        omega
      rw [if_neg (by simp [hset]), if_neg (by omega), if_neg (by omega), if_pos (by simp [hgrid]), answerFrame_refuse]
    · have hgrid : s.pixel.onGrid (tileRectAt f.payload 0) = true := (PixelStore.onGrid_iff _ _).2 ⟨hx, hy⟩
      rw [if_neg (by simp [hset]), if_neg (by omega), if_neg (by omega), if_neg (by simp [hgrid]), answerFrame_answerOk]
      refine ⟨(s.mapTiles (tileRectAt f.payload 0) fun _ _ r => markTile (u8At f.payload 4) r).ghost.tiles, ?_,
        State.length_mapTiles _ _ _, fun i j hi hj => ?_⟩
      · rw [← List.countP_eq_length_filter]
        rfl
      · change (s.mapTiles (tileRectAt f.payload 0) fun _ _ r => markTile (u8At f.payload 4) r).tile i j = _
        rw [State.tile_mapTiles s _ _ i j hl hi hj]
        by_cases hin : (tileRectAt f.payload 0).has i j = true
        · rw [if_pos hin]
          by_cases howner : (s.tile i j).owner = none
          · rw [if_pos ⟨hin, howner⟩, markTile, if_neg (by simp [howner])]
          · rw [if_neg fun h => howner h.2, markTile, if_pos (by simpa [Option.isSome_iff_ne_none] using howner)]
        · rw [if_neg hin, if_neg fun h => hin h.1]

end Sys2Proof.Machine
end

section
/-! PROOF. Chapters 4 and 6.2: updates started, cancelled and stopped, the admission pass, and the start of a frame
(R57 to R72, R99, R100, R108, R119). -/

namespace Sys2Proof.Machine

/-! ### START_UPDATE -/

theorem PixelStore.clip_of_outside {p : PixelStore} {r : Rect} (h : p.width ≤ r.x ∨ r.w = 0 ∨ p.height ≤ r.y ∨ r.h = 0) :
    p.clip r = none := if_neg (by omega)

theorem PixelStore.clip_of_inside {p : PixelStore} {r : Rect} (hx : r.x < p.width) (hy : r.y < p.height) (hw : 0 < r.w)
    (hh : 0 < r.h) : p.clip r = some { r with w := min r.w (p.width - r.x), h := min r.h (p.height - r.y) } :=
  if_pos ⟨hx, hy, hw, hh⟩

theorem execStartUpdate_of_offers {s : State} {f : Frame} (h : s.offers f) (hk : f.kind = 0x40#8) (hn : f.payload.length = 10) :
    exec .startUpdate s = .next (answerFrame f (startUpdateBody f s.released)) :=
  fixedRequest_of_offers (kind := Kind.startUpdate) h hk hn

/-- The entry of an accepted update (R57, R59). -/
def acceptedEntry (tag : Tag) (r : Rect) (m : Mode) (policy : Policy) : PendingEntry :=
  { tag := tag, rect := r, hull := hullOf r, mode := m, policy := policy, recovery := false }

/-- The acceptance of an update whose checks are passed (R57, R116). -/
def State.acceptUpdate (e : PendingEntry) (s : State) : Answer :=
  answer .queued (encU8 s.sched.queue.length ++ encU8 0 ++ encRect e.rect ++ encTileRect e.hull)
    (if s.rail.state = .off then ({ s with sched.queue := s.sched.queue ++ [e] } : State).enterRising
      else { s with sched.queue := s.sched.queue ++ [e] })

/-- The checks that look at the rectangle, the set and the queue, once the fields are known (R57, R58, R60, R61). -/
theorem startUpdateBody_of_fields {f : Frame} {s : State} {m : Mode} {policy : Policy} (hset : s.pixel.setUp = true)
    (hm : u8At f.payload 8 = m.code) (hp : u8At f.payload 9 = policy.code) : startUpdateBody f s =
      (s.pixel.clip (rectAt f.payload 0)).elim (refuse .emptyRect s) fun r =>
        if (s.wave.set? m s.temp.band).isNone then refuse .noWaveform s
        else if 8 ≤ s.sched.queue.length then refuse .queueFull s
        else s.acceptUpdate (acceptedEntry f.tag r m policy) := by
  unfold startUpdateBody
  dsimp only
  rw [if_neg (by simp [hset]), (Mode.ofCode_eq_some _ m).2 hm, (Policy.ofCode_eq_some _ policy).2 hp]
  cases s.pixel.clip (rectAt f.payload 0) <;> exact rfl

/-- Settles O40: the checks of R57 to R61 in order, and the acceptance. -/
theorem updateStarted : Obligations.UpdateStarted := by
  refine ⟨fun s f h hk hn => ?_, fun s f m policy h hk hn => ?_⟩
  · dsimp only
    rw [execStartUpdate_of_offers h hk hn]
    refine ⟨fun hset => ?_, fun hset hfields => ?_, fun m policy hset hm hp => ?_⟩
    · rw [startUpdateBody, if_pos (by simp [hset]), answerFrame_refuse]
    · obtain ⟨hmode, -, -, -, -, -, -, -⟩ := ofCode_eq_none (u8At f.payload 8)
      obtain ⟨-, hpolicy, -, -, -, -, -, -⟩ := ofCode_eq_none (u8At f.payload 9)
      rw [startUpdateBody, if_neg (by simp [hset])]
      split
      next m policy hm hp =>
        have hm' : ¬ 4 < u8At f.payload 8 := fun hlt => by rw [hmode.2 hlt] at hm; cases hm
        have hp' : ¬ 2 < u8At f.payload 9 := fun hlt => by rw [hpolicy.2 hlt] at hp; cases hp
        omega
      next => rw [answerFrame_refuse]
    · rw [startUpdateBody_of_fields (s := s.released) hset hm hp, State.released_pixel]
      refine ⟨fun hout => ?_, fun hx hy hw hh => ⟨fun hnone => ?_, fun hsome hfull => ?_⟩⟩
      · rw [PixelStore.clip_of_outside hout, Option.elim_none, answerFrame_refuse]
      · rw [PixelStore.clip_of_inside hx hy hw hh, Option.elim_some, State.released_wave, State.released_temp,
          if_pos (by simp [hnone]), answerFrame_refuse]
      · rw [PixelStore.clip_of_inside hx hy hw hh, Option.elim_some, State.released_wave, State.released_temp,
          if_neg (by simpa using hsome), State.released_sched, if_pos hfull, answerFrame_refuse]
  · intro r hset hm hp hx hy hw hh hsome hroom q hull
    have hhull : hullOf q = hull := by
      simp only [hullOf, hull, Config.tileSide, TileRect.mk.injEq, true_and]
      have hqw : 0 < q.w := Nat.lt_min.2 ⟨hw, by omega⟩
      have hqh : 0 < q.h := Nat.lt_min.2 ⟨hh, by omega⟩
      omega
    rw [execStartUpdate_of_offers h hk hn, startUpdateBody_of_fields (s := s.released) hset hm hp, State.released_pixel,
      PixelStore.clip_of_inside hx hy hw hh, Option.elim_some, State.released_wave, State.released_temp,
      if_neg (by simpa using hsome), State.released_sched, if_neg (by omega), State.acceptUpdate, answerFrame_answer]
    rw [← hhull, State.released_rail]
    by_cases hoff : s.rail.state = .off
    · rw [if_pos hoff, if_pos hoff]
      rfl
    · rw [if_neg hoff, if_neg hoff]
      rfl

/-! ### Departures from the queue -/

/-- What leaves the queue and the notices it raises (R66, R67), with any form of the test that no slot is active. -/
theorem State.leaveQueue_eq (q : List PendingEntry) (s : State) {quiet : Prop} [Decidable quiet]
    (hquiet : quiet ↔ ∀ i : Fin 16, s.frame.slots[i] = none) : s.leaveQueue q =
      let u : State := { s with sched.queue := q }
      let v := if 8 ≤ s.sched.queue.length ∧ q.length < 8 then u.raise .queueSpace else u
      if q.length < s.sched.queue.length ∧ q = [] ∧ quiet then v.raise .idle else v := by
  have htest (v : State) (hqueue : v.sched.queue = q) (hframe : v.frame = s.frame) :
      q.length < s.sched.queue.length ∧ v.quiet = true ↔ q.length < s.sched.queue.length ∧ q = [] ∧ quiet := by
    rw [State.quiet_iff, hqueue, hframe, hquiet, and_comm (a := q = [])]
  unfold State.leaveQueue
  dsimp only
  by_cases hspace : 8 ≤ s.sched.queue.length ∧ q.length < 8
  · rw [if_pos (show Config.queueCapacity ≤ s.sched.queue.length ∧ q.length < Config.queueCapacity from hspace),
      if_pos hspace]
    exact if_congr (htest _ rfl rfl) rfl rfl
  · rw [if_neg (show ¬ (Config.queueCapacity ≤ s.sched.queue.length ∧ q.length < Config.queueCapacity) from hspace),
      if_neg hspace]
    exact if_congr (htest _ rfl rfl) rfl rfl

/-- Only which tags were reported matters to the waits, not how often. -/
theorem State.endWaits_congr {ts us : List Tag} (h : ∀ t, t ∈ ts ↔ t ∈ us) (s : State) : s.endWaits ts = s.endWaits us := by
  have hcontains (t : Tag) : ts.contains t = us.contains t := by
    rw [Bool.eq_iff_iff, List.contains_iff_mem, List.contains_iff_mem, h]
  simp only [State.endWaits, hcontains]

/-! ### CANCEL_UPDATE and STOP_ALL -/

theorem answerFrame_reported (f : Frame) (p : List Byte) (s : State) (ts : List Tag) :
    answerFrame f { answerOk p s with reported := ts } =
      if ts = [] then s.replied f .ok p else (s.replied f .ok p).endWaits ts := by
  cases ts <;> rfl

/-- The entries that leave with a cancelled tag are those that do not stay. -/
theorem countP_tag (q : List PendingEntry) (t : Tag) : q.countP (fun e => decide (e.tag = t)) =
    q.length - (q.filter fun e => decide (e.tag ≠ t)).length := by
  have hsplit := List.length_eq_countP_add_countP (fun e : PendingEntry => decide (e.tag = t)) (l := q)
  simp only [decide_eq_true_eq] at hsplit
  change q.length = _ + q.countP (fun e => decide (e.tag ≠ t)) at hsplit
  rw [← List.countP_eq_length_filter]
  omega

/-- The entries a pass has examined, of those that stay (R64, R68). -/
theorem FramePhase.without_tag (p : FramePhase) (q : List PendingEntry) (t : Tag) :
    p.without q (fun e => decide (e.tag = t)) = match p with
      | .pass n => .pass ((q.take n).countP fun e => decide (e.tag ≠ t))
      | p => p := by
  cases p with
  | pass n => simp [FramePhase.without]
  | _ => rfl

/-- Settles O41: both requests as the departure of their entries, the end of the pass, the reply and the waits. -/
theorem queueEmptied : Obligations.QueueEmptied := by
  intro s f h
  refine ⟨fun hk hn => ?_, fun hk hp => ?_⟩
  · intro stays left phase t
    have hexec : exec .cancelUpdate s = .next (answerFrame f (cancelUpdateBody f s.released)) :=
      fixedRequest_of_offers (kind := Kind.cancelUpdate) h hk hn
    have hstays : (fun e : PendingEntry => !decide (e.tag = tagAt f.payload 0)) = stays := funext fun e => (decide_not).symm
    have hcount : s.sched.queue.countP (fun e => decide (e.tag = tagAt f.payload 0)) = s.sched.queue.length - left.length :=
      countP_tag _ _
    have hle : left.length ≤ s.sched.queue.length := List.length_filter_le _ _
    rw [hexec, cancelUpdateBody, answerFrame_reported, State.released_sched, hcount, hstays,
      State.leaveQueue_eq _ _ Iff.rfl, State.released_frame, FramePhase.without_tag]
    by_cases hleft : left.length < s.sched.queue.length
    · rw [if_pos hleft, if_neg (by simp only [List.replicate_eq_nil_iff]; omega)]
      rw [State.endWaits_congr (us := [tagAt f.payload 0]) fun x => by
        rw [List.mem_replicate, List.mem_singleton, and_iff_right (by omega)]]
      rfl
    · rw [if_neg hleft, if_pos (by simp only [List.replicate_eq_nil_iff]; omega)]
      rfl
  · have hexec : exec .stopAll s = .next (answerFrame f (stopAllBody f s.released)) :=
      fixedRequest_of_offers (kind := Kind.stopAll) h hk (by rw [hp]; rfl)
    have hslots (i : Fin 16) : (s.frame.slots.map (Option.map Slot.stop))[i] = s.frame.slots[i].map Slot.stop := by
      rw [Fin.getElem_fin, Vector.getElem_map, ← Fin.getElem_fin]
    have hquiet : (∀ i : Fin 16, s.frame.slots[i] = none) ↔
        ∀ i : Fin 16, (s.frame.slots.map (Option.map Slot.stop))[i] = none :=
      forall_congr' fun i => by rw [hslots, Option.map_eq_none_iff]
    refine ⟨s.frame.slots.map (Option.map Slot.stop), ?_, hslots⟩
    rw [hexec, stopAllBody, answerFrame_reported, State.released_sched, State.leaveQueue_eq _ _ hquiet]
    simp only [List.map_eq_nil_iff]
    rfl

end Sys2Proof.Machine
end

section
/-! PROOF. The admission pass: the start of a frame, the end of a pass, and the examination of an entry (R68 to R71, R99 to
R102, R119). -/

namespace Sys2Proof.Machine

/-! ### The end of a pass -/

theorem State.slotCode_of_set {s : State} {sl : Slot} {w : WaveformSet} (h : s.wave.set? sl.effective sl.band = some w)
    (x y : Nat) : s.slotCode sl x y = w.code (s.pixel.believed.level x y) (s.pixel.next.level x y) sl.index := by
  simp only [State.slotCode, h]

theorem State.slotCode_of_none {s : State} {sl : Slot} (h : s.wave.set? sl.effective sl.band = none) (x y : Nat) :
    s.slotCode sl x y = .rest := by
  simp only [State.slotCode, h]

/-- DRIVE_ACTIVE: some pixel of a drive set receives another code than REST (R102). -/
theorem State.drivesAny_iff (s : State) : s.drivesAny = true ↔
    ∃ (i : Fin 16) (sl : Slot) (w : WaveformSet) (x y : Nat), s.frame.slots[i] = some sl ∧
      s.wave.set? sl.effective sl.band = some w ∧ (s.pixel.driveSet sl).has x y = true ∧
      w.code (s.pixel.believed.level x y) (s.pixel.next.level x y) sl.index ≠ .rest := by
  simp only [State.drivesAny, List.any_eq_true, Prod.exists, FrameEngine.mem_active, Rect.mem_pixels, decide_eq_true_eq]
  constructor
  · rintro ⟨i, sl, hsl, x, y, hin, hcode⟩
    cases hset : s.wave.set? sl.effective sl.band with
    | none => exact absurd (State.slotCode_of_none hset x y) hcode
    | some w => exact ⟨i, sl, w, x, y, hsl, hset, hin, State.slotCode_of_set hset x y ▸ hcode⟩
  · rintro ⟨i, sl, w, x, y, hsl, hset, hin, hcode⟩
    exact ⟨i, sl, hsl, x, y, hin, (State.slotCode_of_set hset x y).symm ▸ hcode⟩

theorem State.not_drivesAny {s : State} (h : ∀ i : Fin 16, s.frame.slots[i] = none) : s.drivesAny = false := by
  rw [← Bool.not_eq_true, State.drivesAny_iff]
  rintro ⟨i, sl, -, -, -, hsl, -⟩
  cases (h i).symm.trans hsl

theorem State.settlePass_of_left {s : State} (h : ∀ k, s.frame.phase = .pass k → k < s.sched.queue.length) :
    s.settlePass = s := by
  rcases s.settlePass_cases with hs | ⟨k, hphase, hdone, -⟩
  · exact hs
  · exact absurd (h k hphase) (Nat.not_lt.2 hdone)

theorem State.settlePass_of_done {s : State} {k : Nat} (hphase : s.frame.phase = .pass k) (h : s.sched.queue.length ≤ k) :
    s.settlePass = s.concludeStart := by
  simp only [State.settlePass, hphase, if_pos h]

/-- A frame with work is driven, and the idle-frame count is 0 (R100). -/
theorem State.concludeStart_of_busy {s : State} (h : ¬ s.quiet = true) :
    s.concludeStart = { s with frame := { s.frame with idle := 0, phase := .driven, driveActive := s.drivesAny } } := by
  rw [State.concludeStart, if_neg fun hq => h hq.1, State.nextIdle, if_neg h]

theorem State.nextIdle_of_quiet {s : State} (h : s.quiet = true) : s.nextIdle = min (s.frame.idle + 1) 1000 := if_pos h

/-- What the end of a pass does: with work the frame is driven, without it the idle-frame count decides (R99, R100, R119). -/
theorem State.settlePass_outcomes {s : State} {k : Nat} (hphase : s.frame.phase = .pass k) (h : s.sched.queue.length ≤ k) :
    (s.sched.queue ≠ [] ∨ ¬ (∀ i : Fin 16, s.frame.slots[i] = none) → ∃ active : Bool,
      s.settlePass = { s with frame := { s.frame with idle := 0, phase := .driven, driveActive := active } } ∧
      (active = true ↔ ∃ (i : Fin 16) (sl : Slot) (w : WaveformSet) (x y : Nat), s.frame.slots[i] = some sl ∧
        s.wave.set? sl.effective sl.band = some w ∧ (s.pixel.driveSet sl).has x y = true ∧
        w.code (s.pixel.believed.level x y) (s.pixel.next.level x y) sl.index ≠ .rest)) ∧
    (s.sched.queue = [] → (∀ i : Fin 16, s.frame.slots[i] = none) → min (s.frame.idle + 1) 1000 < s.rail.lingerFrames →
      s.settlePass = { s with frame := { s.frame with
        idle := min (s.frame.idle + 1) 1000, phase := .driven, driveActive := false } }) ∧
    (s.sched.queue = [] → (∀ i : Fin 16, s.frame.slots[i] = none) → s.rail.lingerFrames ≤ min (s.frame.idle + 1) 1000 →
      s.settlePass = { s with
        rail.state := .falling s.rail.dischargeTime,
        frame := { s.frame with idle := min (s.frame.idle + 1) 1000, phase := .stopped, driveActive := false } }) := by
  rw [State.settlePass_of_done hphase h]
  refine ⟨fun hwork => ?_, fun hqueue hslots hlinger => ?_, fun hqueue hslots hlinger => ?_⟩
  · have hbusy : ¬ s.quiet = true := by
      rw [State.quiet_iff]
      exact fun ⟨hslots, hqueue⟩ => hwork.elim (fun hne => hne hqueue) fun hne => hne hslots
    exact ⟨_, State.concludeStart_of_busy hbusy, s.drivesAny_iff⟩
  · have hquiet : s.quiet = true := (State.quiet_iff _).2 ⟨hslots, hqueue⟩
    rw [State.concludeStart, State.nextIdle_of_quiet hquiet, if_neg (by omega), State.not_drivesAny hslots]
  · have hquiet : s.quiet = true := (State.quiet_iff _).2 ⟨hslots, hqueue⟩
    rw [State.concludeStart, State.nextIdle_of_quiet hquiet, if_pos ⟨hquiet, hlinger⟩]
    rfl

/-- Settles O42: the frame start opens a pass, and an empty queue ends it at once. -/
theorem frameStart : Obligations.FrameStart := by
  refine ⟨fun s hrail hphase => ?_, fun s => State.settlePass_of_left, fun s k hphase hdone =>
    State.settlePass_outcomes hphase hdone⟩
  have hexec : exec .frameStart s = .next ({ s with
      frame.counter := s.frame.counter + 1#16, frame.phase := .pass 0, temp := s.temp.frameStart } : State).settlePass :=
    if_pos ⟨hrail, hphase⟩
  dsimp only
  rw [hexec]
  refine ⟨fun hqueue => ?_, fun hqueue hslots => ?_, fun hqueue hslots hlinger => ?_, fun hqueue hslots hlinger => ?_⟩
  · refine congrArg _ (State.settlePass_of_left fun k hk => ?_)
    cases hk
    exact List.length_pos_iff.2 hqueue
  all_goals
    have houtcomes := State.settlePass_outcomes (s := { s with
      frame.counter := s.frame.counter + 1#16, frame.phase := .pass 0, temp := s.temp.frameStart }) (k := 0) rfl
      (by rw [hqueue]; exact le_rfl)
    obtain ⟨hbusy, hidle, hfall⟩ := houtcomes
  · obtain ⟨active, hsettled, hactive⟩ := hbusy (.inr hslots)
    exact ⟨active, congrArg _ hsettled, hactive⟩
  · exact congrArg _ (hidle hqueue hslots hlinger)
  · exact congrArg _ (hfall hqueue hslots hlinger)

/-! ### The examination of an entry -/

theorem TemperatureUnit.ready_iff (u : TemperatureUnit) :
    u.ready = true ↔ u.fresh = true ∨ u.status = .stale ∨ u.settings.source = .none := by
  simp only [TemperatureUnit.ready, Bool.or_eq_true, decide_eq_true_eq, or_assoc]

/-- The conditions (a) to (d) and (f) as the model computes them are those of R69. -/
theorem State.admissible_iff (s : State) (n : Nat) (e : PendingEntry) : s.admissible n e = true ↔ s.mayGo n e := by
  have hover : (!(s.sched.queue.take n).any fun o => o.hull.overlaps e.hull) = true ↔
      ∀ o ∈ s.sched.queue.take n, ¬ ∃ i j, o.hull.has i j = true ∧ e.hull.has i j = true := by
    simp only [Bool.not_eq_true', List.any_eq_false, TileRect.overlaps_iff]
  have hfree : s.hullFree e.hull = true ↔ ∀ i j, e.hull.has i j = true →
      (s.tile i j).owner = none ∧ s.ghost.policy.settle ≤ (s.tile i j).rest := by
    simp only [State.hullFree, List.all_eq_true, Prod.forall, TileRect.mem_tiles, Bool.and_eq_true, decide_eq_true_eq,
      Option.isNone_iff_eq_none]
  have hfresh : (!s.ghost.policy.freshSample || s.temp.ready) = true ↔ (s.ghost.policy.freshSample = true →
      s.temp.fresh = true ∨ s.temp.status = .stale ∨ s.temp.settings.source = .none) := by
    rw [← TemperatureUnit.ready_iff]
    cases s.ghost.policy.freshSample <;> simp
  rw [State.admissible, Bool.and_eq_true, Bool.and_eq_true, Bool.and_eq_true, hover, hfree, FrameEngine.freeSlot_isSome,
    hfresh, and_assoc, and_assoc]
  rfl

theorem State.examine_of_not_mayGo {s : State} {n : Nat} {e : PendingEntry} (h : ¬ s.mayGo n e) :
    s.examine n e = s.holdEntry n := by
  have hadm : s.admissible n e = false := by
    rw [← Bool.not_eq_true, State.admissible_iff]
    exact h
  simp only [State.examine, hadm]

/-- The examination of an entry that may go, by its plan (R70, R71). -/
theorem State.examine_of_mayGo {s : State} {n : Nat} {e : PendingEntry} (h : s.mayGo n e) :
    ∃ i, s.frame.freeSlot = some i ∧
      (∀ o eff esc, s.plan e s.temp.band = .refused o eff esc → s.examine n e = s.refuseEntry n e o eff esc) ∧
      ∀ eff esc, s.plan e s.temp.band = .drive eff esc →
        s.examine n e = if s.wave.holds eff s.temp.band then s.holdEntry n else s.enterEntry n i e eff esc := by
  have hadm := (s.admissible_iff n e).2 h
  obtain ⟨i, hi⟩ := Option.isSome_iff_exists.1 ((FrameEngine.freeSlot_isSome _).2 h.2.2.1)
  refine ⟨i, hi, fun o eff esc hplan => ?_, fun eff esc hplan => ?_⟩
  · simp only [State.examine, hadm, hi, hplan]
  · simp only [State.examine, hadm, hi, hplan]

theorem WaveformStore.holds_iff (w : WaveformStore) (m : Mode) (b : Fin 8) :
    w.holds m b = true ↔ ∃ h, w.held = some h ∧ h.mode = m ∧ h.band = b := by
  unfold WaveformStore.holds
  cases w.held with
  | none => simp
  | some h => simp

/-- Settles O43: the examination by its outcomes, and the departure of the entry from the queue. -/
theorem entryExamined : Obligations.EntryExamined := by
  intro s n e hrail hphase hentry
  have hexec : exec .entryExamination s = .next (s.examine n e).settlePass := by
    change execEntryExamination s = _
    rw [execEntryExamination, if_pos hrail]
    simp only [hphase, hentry]
  obtain ⟨hn, -⟩ := List.getElem?_eq_some_iff.1 hentry
  have hlength : (s.sched.queue.eraseIdx n).length < s.sched.queue.length := by
    rw [List.length_eraseIdx_of_lt hn]
    omega
  dsimp only
  rw [hexec]
  refine ⟨fun hno => ?_, fun hgo eff esc hplan hheld => ?_, fun hgo o eff esc hplan => ?_, fun hgo eff esc hplan hheld => ?_⟩
  · rw [State.examine_of_not_mayGo hno]
    rfl
  · obtain ⟨i, -, -, hdrive⟩ := State.examine_of_mayGo hgo
    rw [hdrive eff esc hplan, if_pos ((WaveformStore.holds_iff _ _ _).2 hheld)]
    rfl
  · obtain ⟨i, -, hrefused, -⟩ := State.examine_of_mayGo hgo
    rw [hrefused o eff esc hplan, State.refuseEntry]
    rw [State.leaveQueue_eq (quiet := ∀ i : Fin 16, s.frame.slots[i] = none) _ _ (by rw [State.joinRecord_frame]),
      State.joinRecord_sched]
    simp only [hlength, true_and]
  · obtain ⟨i, hi, -, hdrive⟩ := State.examine_of_mayGo hgo
    obtain ⟨hslot, hlowest⟩ := (FrameEngine.freeSlot_eq_some _ _).1 hi
    refine ⟨i, hslot, hlowest, ?_⟩
    rw [hdrive eff esc hplan, if_neg ((WaveformStore.holds_iff _ _ _).not.2 hheld), State.enterEntry,
      State.leaveQueue_eq (quiet := False) _ _ ?_]
    · simp only [and_false, if_false]
      rfl
    · refine ⟨False.elim, fun hnone => ?_⟩
      have hfilled : (s.fillSlot i e eff esc s.temp.band).frame.slots[i] = some (s.admittedSlot e eff esc s.temp.band) :=
        (FrameEngine.slots_setSlot _ _ _ _).trans (if_pos rfl)
      cases (hnone i).symm.trans hfilled

end Sys2Proof.Machine
end


section
/-! PROOF. Chapter 9, the bytes of the host port: what each takes (R138, R139, R141), the taking of a header (R143, R145),
and a whole frame delivered. -/

namespace Sys2Proof.Machine

/-! ### A new framing state with the same reservation -/

theorem MessageLink.rxFree_of_reserved {l k : MessageLink} (h : k.reserved = l.reserved) : k.rxFree = l.rxFree :=
  congrArg (Config.receiveBytes - ·) h

/-- Where the reservation stands, HOLD of a sound link stands too. -/
theorem MessageLink.drawHold_of_sound {l k : MessageLink} (hl : l.sound) (hreserved : k.reserved = l.reserved)
    (hhold : k.hold = l.hold) : k.drawHold = k := by
  obtain ⟨-, -, -, hlow, hhigh⟩ := hl
  have hfree := MessageLink.rxFree_of_reserved hreserved
  exact k.drawHold_eq_self (fun h => hhold.trans (hlow (hfree ▸ h))) fun h => hhold.trans (hhigh (hfree ▸ h))

theorem MessageLink.reserved_framing {l : MessageLink} {fr : Framing} (h : fr.reserved = l.framing.reserved) :
    ({ l with framing := fr } : MessageLink).reserved = l.reserved := by
  simp only [MessageLink.reserved, h]

theorem State.setFraming_of_sound {s : State} {fr : Framing} (hs : s.link.sound)
    (h : fr.reserved = s.link.framing.reserved) : s.setFraming fr = { s with link.framing := fr } :=
  congrArg (fun l => { s with link := l }) (MessageLink.drawHold_of_sound hs (MessageLink.reserved_framing h) rfl)

theorem MessageLink.sound_framing {l : MessageLink} {fr : Framing} (hl : l.sound) (hfr : fr.sound)
    (h : fr.reserved = l.framing.reserved) : ({ l with framing := fr } : MessageLink).sound := by
  have hreserved := MessageLink.reserved_framing h
  obtain ⟨-, hroom, hreplies, hlow, hhigh⟩ := hl
  refine ⟨hfr, hreserved.trans_le hroom, hreplies, ?_, ?_⟩ <;> rwa [MessageLink.rxFree_of_reserved hreserved]

/-! ### Bytes taken without an answer -/

/-- A header byte short of the sixth is counted (R139). -/
theorem exec_headerByte {s : State} {got : List Byte} (hs : s.link.sound) (hf : s.link.framing = .header got)
    (b : Byte) (hlength : got.length < 5) (hb : got = [] → b = 0xC3#8) :
    exec (.frameByteReceived b) s = .next { s with link.framing := .header (got ++ [b]) } := by
  rw [← State.setFraming_of_sound hs (by rw [hf]; rfl)]
  change execFrameByteReceived b s = _
  cases got with
  | nil =>
    simp only [execFrameByteReceived, hf]
    exact if_pos (hb rfl)
  | cons g gs =>
    simp only [execFrameByteReceived, hf]
    exact if_pos hlength

/-- A payload byte short of the last is stored (R139). -/
theorem exec_payloadByte {s : State} {kind : Byte} {tag : Tag} {n : Nat} {got : List Byte} (hs : s.link.sound)
    (hf : s.link.framing = .payload kind tag n got) (b : Byte) (hlength : got.length + 1 < n) :
    exec (.frameByteReceived b) s = .next { s with link.framing := .payload kind tag n (got ++ [b]) } := by
  rw [← State.setFraming_of_sound hs (by rw [hf]; rfl)]
  change execFrameByteReceived b s = _
  simp only [execFrameByteReceived, hf]
  exact if_pos hlength

/-- The last payload byte completes the frame, which keeps the room it had reserved (R139, R143). -/
theorem exec_lastByte {s : State} {kind : Byte} {tag : Tag} {n : Nat} {got : List Byte} (hs : s.link.sound)
    (hf : s.link.framing = .payload kind tag n got) (b : Byte) (hlength : got.length + 1 = n) :
    exec (.frameComplete b) s = .next { s with
      link := { s.link with
        framing := .header [], frames := s.link.frames ++ [{ kind := kind, tag := tag, payload := got ++ [b] }] } } := by
  have hreserved : ({ s.link with
      framing := .header [], frames := s.link.frames ++ [{ kind := kind, tag := tag, payload := got ++ [b] }] } :
        MessageLink).reserved = s.link.reserved := by
    simp [MessageLink.reserved, Frame.reserved, Framing.reserved, hf, hlength]
  have hdrawn := MessageLink.drawHold_of_sound hs hreserved rfl
  change execFrameComplete b s = _
  simp only [execFrameComplete, hf]
  exact (if_pos hlength).trans (congrArg (fun l => Host.Outcome.next { s with link := l }) hdrawn)

theorem exec_skippedByte {s : State} {n : Nat} (hs : s.link.sound) (hf : s.link.framing = .skip n) (b : Byte)
    (hn : 1 < n) : exec (.frameByteReceived b) s = .next { s with link.framing := .skip (n - 1) } := by
  rw [← State.setFraming_of_sound hs (by rw [hf]; rfl)]
  change execFrameByteReceived b s = _
  simp only [execFrameByteReceived, hf]
  exact if_pos hn

theorem exec_skipEnd {s : State} (hs : s.link.sound) (hf : s.link.framing = .skip 1) (b : Byte) :
    exec (.skipEnd b) s = .next { s with link.framing := .header [] } := by
  rw [← State.setFraming_of_sound hs (by rw [hf]; rfl)]
  change execSkipEnd b s = _
  simp only [execSkipEnd, hf]

/-- The first whole byte decides the kind of the transaction (R138). -/
theorem exec_transactionPrefix {s : State} (hs : s.link.sound) (hf : s.link.framing = .selectWait) (b : Byte) :
    exec (.transactionPrefix b) s = .next { s with
      link.framing := if b = 0x01#8 then .header [] else if b = 0x02#8 then .read 0 false else .ignore } := by
  rw [← State.setFraming_of_sound hs (by rw [hf]; split <;> [rfl; split <;> rfl])]
  change execTransactionPrefix b s = _
  simp only [execTransactionPrefix, hf]

theorem exec_of_ignore {s : State} (hf : s.link.framing = .ignore) (b : Byte) :
    ∀ c ∈ [Instr.transactionPrefix b, .badSync b, .headerTaken b, .frameComplete b, .skipEnd b, .frameByteReceived b],
      exec c s = .next s := by
  simp [exec, execTransactionPrefix, execBadSync, execHeaderTaken, execFrameComplete, execSkipEnd, execFrameByteReceived,
    hf]

/-- Settles O5, byte by byte. -/
theorem receivedBytesTaken : Obligations.ReceivedBytesTaken := by
  refine ⟨fun b s hs => ⟨fun hf => exec_transactionPrefix hs hf b, fun hf => exec_of_ignore hf b⟩, fun b s hs =>
    ⟨fun hf => exec_headerByte hs hf _ (by decide) fun _ => rfl, fun got hf hpos hlength => ?_,
      fun kind tag n got hf => exec_payloadByte hs hf b, fun kind tag n got hf => exec_lastByte hs hf b,
      fun n hf => exec_skippedByte hs hf b, fun hf => exec_skipEnd hs hf b⟩⟩
  exact exec_headerByte hs hf b hlength fun hnil => absurd hpos (by rw [hnil]; decide)

/-! ### The waits before a reply made on receipt -/

theorem MessageLink.hasRoom_iff (l : MessageLink) : l.hasRoom = true ↔ l.replies.length < 32 := decide_eq_true_iff

/-- The ENDED waits are placed one after another while there is room (R136). -/
theorem State.serveList_eq (es : List EndedWait) (s : State) (h : s.link.replies.length ≤ 32) :
    State.serveList es s = { s with
      notice.ended := es.drop (32 - s.link.replies.length),
      link := { s.link with
        replies := s.link.replies ++ (es.take (32 - s.link.replies.length)).map EndedWait.reply,
        attn := (State.serveList es s).link.attn } } := by
  induction es generalizing s with
  | nil => simp [State.serveList]
  | cons e es ih =>
    by_cases hroom : s.link.replies.length < 32
    · have hserve : State.serveList (e :: es) s = State.serveList es (s.pushReply e.reply) :=
        if_pos ((MessageLink.hasRoom_iff _).2 hroom)
      have hpushed : (s.pushReply e.reply).link.replies.length = s.link.replies.length + 1 := by simp
      obtain ⟨m, hm⟩ : ∃ m, 32 - s.link.replies.length = m + 1 := ⟨31 - s.link.replies.length, by omega⟩
      have hleft : 32 - (s.pushReply e.reply).link.replies.length = m := by omega
      rw [hserve, hm, List.drop_succ_cons, List.take_succ_cons, List.map_cons, ← List.singleton_append,
        ← List.append_assoc]
      refine (ih _ (by omega)).trans ?_
      rw [hleft]
      rfl
    · have hfull : 32 - s.link.replies.length = 0 := by omega
      have hserve : State.serveList (e :: es) s = { s with notice.ended := e :: es } :=
        if_neg (mt (MessageLink.hasRoom_iff _).1 hroom)
      rw [hserve, hfull, List.drop_zero, List.take_zero, List.map_nil, List.append_nil]

/-- Settles O7: the list served, and the place left for the reply. -/
theorem waitsGoBeforeReceiptReplies : Obligations.WaitsGoBeforeReceiptReplies := by
  intro r s h free
  have hserved := State.serveList_eq s.notice.ended s h
  refine ⟨hserved, ?_⟩
  have hreplies : s.serveWaits.link.replies = s.link.replies ++ (s.notice.ended.take free).map EndedWait.reply :=
    congrArg (fun u : State => u.link.replies) hserved
  have hroom : s.serveWaits.link.hasRoom = true ↔ s.notice.ended.length < free := by
    rw [MessageLink.hasRoom_iff, hreplies]
    simp only [List.length_append, List.length_map, List.length_take]
    omega
  by_cases hleft : s.notice.ended.length < free
  · have hpush : s.receiptReply r = s.serveWaits.pushReply r := if_pos (hroom.2 hleft)
    rw [hpush, if_pos hleft]
    exact congrArg (fun u : State => { u with link := { u.link with
      replies := u.link.replies ++ [r], attn := (s.serveWaits.pushReply r).link.attn } }) hserved
  · have hdropped : s.receiptReply r = s.serveWaits := if_neg (mt hroom.1 hleft)
    rw [hdropped, if_neg hleft, List.append_nil]
    exact hserved

/-! ### The taking of a header -/

theorem exec_headerTaken {s : State} {sync kind lo hi n0 : Byte}
    (hf : s.link.framing = .header [sync, kind, lo, hi, n0]) (b : Byte) :
    exec (.headerTaken b) s = .next (s.takeHeader kind (hi ++ lo) (n0.toNat + 256 * b.toNat)) := by
  change execHeaderTaken b s = _
  simp only [execHeaderTaken, hf, headerTag]

theorem State.takeHeader_of_reserves {s : State} {n : Nat} (kind : Byte) (tag : Tag) (hpos : 0 < n) (hmax : n ≤ 4112)
    (hroom : 6 + n ≤ s.link.rxFree) : s.takeHeader kind tag n = s.setFraming (.payload kind tag n []) := by
  rw [State.takeHeader, if_neg (show ¬ Config.maxPayload < n from Nat.not_lt.2 hmax),
    if_neg (show ¬ s.link.rxFree < Config.requestHeaderBytes + n from Nat.not_lt.2 hroom), if_neg hpos.ne']

theorem State.takeHeader_of_empty {s : State} (kind : Byte) (tag : Tag) (hroom : 6 ≤ s.link.rxFree) :
    s.takeHeader kind tag 0 = ({ s with
      link.frames := s.link.frames ++ [{ kind := kind, tag := tag, payload := [] }] } : State).setFraming (.header []) := by
  rw [State.takeHeader, if_neg (show ¬ Config.maxPayload < 0 by decide),
    if_neg (show ¬ s.link.rxFree < Config.requestHeaderBytes + 0 from Nat.not_lt.2 hroom), if_pos rfl]

/-- Settles O8: the free count and HOLD by their definitions, and the four outcomes of a header. -/
theorem headerTaken : Obligations.HeaderTaken := by
  refine ⟨⟨fun l => ?_, fun l => rfl, fun fr s => rfl⟩, fun b sync kind lo hi n0 s hf => ?_⟩
  · obtain ⟨framing, frames, replies, hold, attn⟩ := l
    cases framing <;> rfl
  · intro length tag
    have hexec : exec (.headerTaken b) s = .next (s.takeHeader kind tag length) := exec_headerTaken hf b
    rw [hexec]
    refine ⟨fun hlong => ?_, fun hmax hroom => ?_, fun hzero hroom => ?_, fun hpos hmax hroom => ?_⟩
    · rw [State.takeHeader, if_pos (show Config.maxPayload < length from hlong)]
    · rw [State.takeHeader, if_neg (show ¬ Config.maxPayload < length from Nat.not_lt.2 hmax),
        if_pos (show s.link.rxFree < Config.requestHeaderBytes + length from hroom)]
      rfl
    · rw [hzero, State.takeHeader_of_empty kind tag hroom]
    · rw [State.takeHeader_of_reserves kind tag hpos hmax hroom]

/-! ### A frame delivered -/

theorem MessageLink.hold_drawHold_congr {l k : MessageLink} (hfree : k.rxFree = l.rxFree) (hhold : k.hold = l.hold) :
    k.drawHold.hold = l.drawHold.hold := by
  simp only [MessageLink.drawHold, hfree, hhold]

theorem runCommands_cons {c : Instr} {cs : List Instr} {s t : State} (h : exec c s = .next t) :
    runCommands (c :: cs) s = runCommands cs t := by simp only [runCommands, h]

theorem append_extractLsb'_bytes (tag : Tag) : (tag.extractLsb' 8 8 ++ tag.extractLsb' 0 8 : BitVec 16) = tag := by
  refine BitVec.eq_of_getLsbD_eq fun i hi => ?_
  rw [BitVec.getLsbD_append]
  by_cases h : i < 8
  · simp [h]
  · have hlt : i - 8 < 8 := by omega
    simp [h, hlt, Nat.add_sub_cancel' (Nat.not_lt.1 h)]

/-- The state with the header bytes `got` counted. -/
def State.inHeader (s : State) (got : List Byte) : State := { s with link.framing := .header got }

/-- The first five bytes of a header are counted, and nothing else changes. -/
theorem runCommands_header {s : State} (hs : s.link.sound) (hf : s.link.framing = .header [])
    (kind lo hi n0 : Byte) (cs : List Instr) :
    runCommands ([.frameByteReceived 0xC3#8, .frameByteReceived kind, .frameByteReceived lo, .frameByteReceived hi,
      .frameByteReceived n0] ++ cs) s = runCommands cs (s.inHeader [0xC3#8, kind, lo, hi, n0]) := by
  have hsound : ∀ got : List Byte, got.length ≤ 5 → (s.inHeader got).link.sound := fun got hgot =>
    MessageLink.sound_framing hs hgot (by rw [hf]; rfl)
  have hbyte : ∀ (got : List Byte) (b : Byte), got ≠ [] → got.length < 5 →
      exec (.frameByteReceived b) (s.inHeader got) = .next (s.inHeader (got ++ [b])) := fun got b hne hlength =>
    exec_headerByte (hsound got hlength.le) rfl b hlength fun hnil => absurd hnil hne
  have hsync : exec (.frameByteReceived 0xC3#8) s = .next (s.inHeader [0xC3#8]) :=
    exec_headerByte hs hf _ (by decide) fun _ => rfl
  simp only [List.cons_append, List.nil_append]
  rw [runCommands_cons hsync, runCommands_cons (hbyte [0xC3#8] kind (by simp) (by simp)),
    runCommands_cons (hbyte ([0xC3#8] ++ [kind]) lo (by simp) (by simp)),
    runCommands_cons (hbyte ([0xC3#8] ++ [kind] ++ [lo]) hi (by simp) (by simp)),
    runCommands_cons (hbyte ([0xC3#8] ++ [kind] ++ [lo] ++ [hi]) n0 (by simp) (by simp))]
  rfl

/-- The payload bytes short of the last are stored one after another. -/
theorem runCommands_payload {kind : Byte} {tag : Tag} {n : Nat} (bs : List Byte) (cs : List Instr) {s : State}
    {got : List Byte} (hs : s.link.sound) (hf : s.link.framing = .payload kind tag n got)
    (hlength : got.length + bs.length < n) :
    runCommands (bs.map .frameByteReceived ++ cs) s =
      runCommands cs { s with link.framing := .payload kind tag n (got ++ bs) } := by
  induction bs generalizing s got with
  | nil =>
    rw [List.append_nil, ← hf]
    rfl
  | cons b bs ih =>
    rw [List.length_cons] at hlength
    have hbounds : got.length < n ∧ n ≤ Config.maxPayload := by
      have hsound := hs.1
      rwa [hf] at hsound
    have hstored : (got ++ [b]).length + bs.length < n := by
      rw [List.length_append, List.length_singleton]
      omega
    have hsound := MessageLink.sound_framing (fr := .payload kind tag n (got ++ [b])) hs ⟨by omega, hbounds.2⟩
      (by rw [hf]; rfl)
    rw [List.map_cons, List.cons_append, runCommands_cons (exec_payloadByte hs hf b (by omega)),
      ih hsound rfl hstored, List.append_assoc]
    rfl

/-- The link that reserves the room of a frame is sound. -/
theorem State.sound_reserves {s : State} {kind : Byte} {tag : Tag} {n : Nat} (hs : s.link.sound)
    (hnone : s.link.framing.reserved = 0) (hpos : 0 < n) (hmax : n ≤ 4112) (hroom : 6 + n ≤ s.link.rxFree) :
    (s.setFraming (.payload kind tag n [])).link.sound := by
  obtain ⟨-, hreserved, hreplies, -, -⟩ := hs
  have hfits : (s.setFraming (.payload kind tag n [])).link.reserved ≤ Config.receiveBytes := by
    have hsum : (s.setFraming (.payload kind tag n [])).link.reserved = s.link.reserved + (6 + n) := by
      change (s.link.frames.map Frame.reserved).sum + (6 + n) =
        (s.link.frames.map Frame.reserved).sum + s.link.framing.reserved + (6 + n)
      rw [hnone, Nat.add_zero]
    rw [MessageLink.rxFree] at hroom
    omega
  obtain ⟨hlow, hhigh, -⟩ :=
    MessageLink.drawHold_agrees ({ s.link with framing := .payload kind tag n [] } : MessageLink)
  exact ⟨⟨hpos, hmax⟩, hfits, hreplies, hlow, hhigh⟩

/-- Settles O9: the header counted and taken, the payload stored, and the last byte completing the frame. -/
theorem frameDelivered : Obligations.FrameDelivered := by
  intro kind tag payload s hs hf hmax hroom
  have hlength : (BitVec.ofNat 8 payload.length).toNat + 256 * (BitVec.ofNat 8 (payload.length / 256)).toNat =
      payload.length := by
    simp only [BitVec.toNat_ofNat]
    omega
  have hcommands : frameCommands kind tag payload =
      [.frameByteReceived 0xC3#8, .frameByteReceived kind, .frameByteReceived (tag.extractLsb' 0 8),
        .frameByteReceived (tag.extractLsb' 8 8), .frameByteReceived (BitVec.ofNat 8 payload.length)] ++
      (.headerTaken (BitVec.ofNat 8 (payload.length / 256)) ::
        (payload.dropLast.map .frameByteReceived ++ payload.getLast?.toList.map .frameComplete)) := rfl
  rw [hcommands, runCommands_header hs hf, runCommands_cons (exec_headerTaken rfl _), append_extractLsb'_bytes, hlength]
  have hsame : Framing.reserved (.header [0xC3#8, kind, tag.extractLsb' 0 8, tag.extractLsb' 8 8,
      BitVec.ofNat 8 payload.length]) = s.link.framing.reserved := by rw [hf]; rfl
  have hsound := MessageLink.sound_framing hs (show _ ≤ 5 by simp) hsame
  have hfree := MessageLink.rxFree_of_reserved (MessageLink.reserved_framing hsame)
  rcases List.eq_nil_or_concat' payload with rfl | ⟨front, last, rfl⟩
  · rw [List.length_nil, State.takeHeader_of_empty kind tag (hroom.trans_eq hfree.symm)]
    simp [runCommands, State.setFraming, State.inHeader, hf]
  · have hpos : 0 < (front ++ [last]).length := by simp
    have hroom' := hroom.trans_eq hfree.symm
    rw [State.takeHeader_of_reserves kind tag hpos hmax hroom', List.dropLast_concat, List.getLast?_concat]
    have hreserves := State.sound_reserves (s := s.inHeader [0xC3#8, kind, tag.extractLsb' 0 8,
      tag.extractLsb' 8 8, BitVec.ofNat 8 (front ++ [last]).length]) (kind := kind) (tag := tag) hsound rfl hpos hmax hroom'
    rw [runCommands_payload front _ hreserves rfl (by simp)]
    have hstored := MessageLink.sound_framing (fr := .payload kind tag (front ++ [last]).length ([] ++ front)) hreserves
      ⟨by simp, hmax⟩ rfl
    refine (runCommands_cons (exec_lastByte hstored rfl last (by simp))).trans ?_
    have hreserved : ({ s.link with framing := .payload kind tag (front ++ [last]).length [] } : MessageLink).reserved =
        ({ s.link with frames := s.link.frames ++ [{ kind := kind, tag := tag, payload := front ++ [last] }] } :
          MessageLink).reserved := by
      simp [MessageLink.reserved, Frame.reserved, Framing.reserved, hf]
    exact congrArg₂ (fun fr h => some ({ s with link := { s.link with
      framing := fr, frames := s.link.frames ++ [{ kind := kind, tag := tag, payload := front ++ [last] }], hold := h } } : State))
      hf.symm (MessageLink.hold_drawHold_congr (MessageLink.rxFree_of_reserved hreserved) rfl)

end Sys2Proof.Machine
end


section
/-! PROOF. Chapter 9, sending: replies that join, are read out and leave (R147, R148), and the deferred replies that follow
(R136). -/

namespace Sys2Proof.Machine

/-! ### Replies join and leave the queue -/

theorem State.attnCondition_iff (s : State) :
    s.attnCondition = true ↔ s.link.replies ≠ [] ∨ s.notice.kinds &&& s.notice.enables ≠ 0#9 := by
  simp [State.attnCondition]

theorem State.pushReply_eq (r : Reply) (s : State) : s.pushReply r = { s with
    link := { s.link with
      replies := s.link.replies ++ [r],
      attn := if s.notice.mode = .level then true else if s.link.replies = [] then true else s.link.attn } } := by
  have hattn : (s.pushReply r).link.attn =
      if s.notice.mode = .level then true else if s.link.replies = [] then true else s.link.attn := by
    cases hmode : s.notice.mode with
    | level =>
      rw [if_pos rfl]
      exact (State.drawAttn_level { s with link.replies := s.link.replies ++ [r] } _ hmode).trans
        ((State.attnCondition_iff _).2 (.inl (List.append_ne_nil_of_right_ne_nil _ (List.cons_ne_nil _ _))))
    | pulse =>
      rw [if_neg (by decide)]
      refine (State.drawAttn_pulse { s with link.replies := s.link.replies ++ [r] } _ hmode).trans ?_
      by_cases hempty : s.link.replies = []
      · simp [hempty]
      · simp [hempty]
  rw [← hattn]
  rfl

theorem State.popReply_eq {s : State} {r : Reply} {rs : List Reply} (h : s.link.replies = r :: rs) :
    s.popReply = { s with link := { s.link with
      replies := rs,
      attn := if s.notice.mode = .level then rs ≠ [] ∨ s.notice.kinds &&& s.notice.enables ≠ 0#9 else s.link.attn } } := by
  have hattn : s.popReply.link.attn =
      if s.notice.mode = .level then decide (rs ≠ [] ∨ s.notice.kinds &&& s.notice.enables ≠ 0#9) else s.link.attn := by
    cases hmode : s.notice.mode with
    | level =>
      rw [if_pos rfl, Bool.eq_iff_iff, decide_eq_true_eq]
      refine (Bool.eq_iff_iff.1 (State.drawAttn_level { s with link.replies := s.link.replies.tail } _ hmode)).trans ((State.attnCondition_iff _).trans ?_)
      simp [h]
    | pulse =>
      rw [if_neg (by decide)]
      exact (State.drawAttn_pulse { s with link.replies := s.link.replies.tail } _ hmode).trans (Bool.or_false _)
  have hreplies : s.popReply.link.replies = rs := by rw [State.popReply_replies, h, List.tail_cons]
  rw [← hattn]
  conv_rhs => rw [← hreplies]
  rfl

theorem exec_replySent_of_last {s : State} {r : Reply} {rs : List Reply} {n : Nat} (hs : s.link.sound)
    (hf : s.link.framing = .read n false) (hr : s.link.replies = r :: rs) (hn : n + 1 = r.bytes.length) :
    exec .replySent s = .next ({ s with link.framing := .read 0 false } : State).popReply := by
  rw [← State.setFraming_of_sound hs (by rw [hf]; rfl)]
  change execReplySent s = _
  simp only [execReplySent, hf, hr]
  exact if_pos hn

theorem exec_replySent_of_unsent {s : State} {r : Reply} {rs : List Reply} {n : Nat}
    (hf : s.link.framing = .read n false) (hr : s.link.replies = r :: rs) (hn : n + 1 ≠ r.bytes.length) :
    exec .replySent s = .next s := by
  change execReplySent s = _
  simp only [execReplySent, hf, hr]
  exact if_neg hn

theorem encTag_eq (t : Tag) : encTag t = [t.extractLsb' 0 8, t.extractLsb' 8 8] := by
  have hhigh : BitVec.ofNat 8 (t.toNat / 256) = t.extractLsb' 8 8 := by
    refine BitVec.eq_of_toNat_eq ?_
    rw [BitVec.toNat_ofNat, BitVec.extractLsb'_toNat, Nat.shiftRight_eq_div_pow]
  have hlow : BitVec.ofNat 8 t.toNat = t.extractLsb' 0 8 := by
    refine BitVec.eq_of_toNat_eq ?_
    rw [BitVec.toNat_ofNat, BitVec.extractLsb'_toNat, Nat.shiftRight_zero]
  rw [encTag, encU16, hlow, hhigh]

theorem EndedWait.reply_eq (e : EndedWait) : e.reply =
    { kind := 0x82#8, tag := e.entry.requestTag, status := if e.timedOut then .timeout else .ok,
      payload := [e.entry.waitedTag.extractLsb' 0 8, e.entry.waitedTag.extractLsb' 8 8,
                  if e.timedOut then 0x02#8 else 0x01#8] } := by
  rw [EndedWait.reply, waitPayload, encTag_eq]
  cases e.timedOut <;> exact rfl

/-- Settles O13: the reply placed, the reply sent, and the deferred reply that follows. -/
theorem repliesLeaveAndWaitsFollow : Obligations.RepliesLeaveAndWaitsFollow := by
  refine ⟨State.pushReply_eq, ⟨fun s n r rs hs hf hr => ⟨fun hn => ?_, exec_replySent_of_unsent hf hr⟩,
    fun s e es hended hroom => ?_⟩⟩
  · exact (exec_replySent_of_last hs hf hr hn).trans (congrArg _ (State.popReply_eq hr))
  · change execWaitReplyPlaced s = _
    simp only [execWaitReplyPlaced, hended]
    rw [if_pos ((MessageLink.hasRoom_iff _).2 hroom), EndedWait.reply_eq]

/-! ### A reply read out -/

theorem State.txByte_of_reply {s : State} {r : Reply} {rs : List Reply} {n : Nat} (hf : s.link.framing = .read n false)
    (hr : s.link.replies = r :: rs) : s.txByte = r.bytes.getD n 0#8 := by simp only [State.txByte, hf, hr]

/-- A byte clocked before the last of the reply at the head is counted (R148). -/
theorem exec_readByte {s : State} {r : Reply} {rs : List Reply} {n : Nat} (hs : s.link.sound)
    (hf : s.link.framing = .read n false) (hr : s.link.replies = r :: rs) (b : Byte) (hn : n + 1 < r.bytes.length) :
    exec (.frameByteReceived b) s = .next { s with link.framing := .read (n + 1) false } := by
  rw [← State.setFraming_of_sound hs (by rw [hf]; rfl)]
  change execFrameByteReceived b s = _
  simp only [execFrameByteReceived, hf, hr]
  exact if_pos hn

/-- A read sends the bytes of the reply at the head in their order. -/
theorem readBytes_reply {r : Reply} {rs : List Reply} (k : Nat) {n : Nat} {s : State} (hs : s.link.sound)
    (hf : s.link.framing = .read n false) (hr : s.link.replies = r :: rs) (hn : n + k < r.bytes.length) :
    readBytes k s = ((r.bytes.drop n).take k, some { s with link.framing := .read (n + k) false }) := by
  induction k generalizing n s with
  | zero =>
    rw [Nat.add_zero, List.take_zero, ← hf]
    rfl
  | succ k ih =>
    have hlt : n < r.bytes.length := by omega
    have hbyte : s.txByte = r.bytes[n] := by
      rw [State.txByte_of_reply hf hr, List.getD_eq_getElem _ _ hlt]
    have hrest := ih (n := n + 1) (s := { s with link.framing := .read (n + 1) false }) (MessageLink.sound_framing (fr := .read (n + 1) false) hs trivial (by rw [hf]; rfl)) rfl hr
      (by omega)
    simp only [readBytes, exec_readByte hs hf hr 0#8 (by omega), hrest, hbyte]
    rw [List.drop_eq_getElem_cons hlt, List.take_succ_cons, Nat.add_right_comm, Nat.add_assoc n k 1]

theorem Reply.bytes_length_pos (r : Reply) : 0 < r.bytes.length := Nat.succ_pos _

theorem Reply.bytes_eq (r : Reply) :
    r.bytes = [0x3C#8, r.kind, r.tag.extractLsb' 0 8, r.tag.extractLsb' 8 8, BitVec.ofNat 8 r.status.code,
      BitVec.ofNat 8 (r.payload.length % 256), BitVec.ofNat 8 (r.payload.length / 256)] ++ r.payload := by
  have hmod : BitVec.ofNat 8 (r.payload.length % 256) = BitVec.ofNat 8 r.payload.length := by
    refine BitVec.eq_of_toNat_eq ?_
    simp only [BitVec.toNat_ofNat]
    omega
  rw [Reply.bytes, encTag_eq, hmod]
  rfl

/-- Settles O14: the bytes of the reply, and the idle bytes of a read that found none. -/
theorem replyReadOut : Obligations.ReplyReadOut := by
  refine ⟨⟨fun s r rs hs hf hr => ?_, fun r _ => r.bytes_eq, fun st => by cases st <;> exact rfl⟩, fun b s hs hf hr => ?_⟩
  · have hpos := r.bytes_length_pos
    refine ⟨_, ?_, rfl, ?_, State.txByte_of_reply hf hr⟩
    · rw [readBytes_reply (r.bytes.length - 1) hs hf hr (by omega), List.drop_zero, List.dropLast_eq_take, Nat.zero_add]
    · have hne : r.bytes ≠ [] := List.ne_nil_of_length_pos hpos
      rw [State.txByte_of_reply (s := { s with link.framing := .read (r.bytes.length - 1) false }) rfl hr, List.getLast?_eq_some_getLast hne, Option.toList_some,
        List.getD_eq_getElem _ _ (by omega), List.getLast_eq_getElem]
  · refine ⟨by simp only [State.txByte, hf, hr], ?_, fun t ht => ⟨?_, ?_, ?_⟩⟩
    · rw [← State.setFraming_of_sound hs (by rw [hf]; rfl)]
      change execFrameByteReceived b s = _
      simp only [execFrameByteReceived, hf, hr]
    · simp only [State.txByte, ht]
    · change execReplySent t = _
      simp only [execReplySent, ht]
    · change execFrameByteReceived b t = _
      simp only [execFrameByteReceived, ht]

end Sys2Proof.Machine
end


section
/-! PROOF. Chapter 8: the kinds pending, the records joined and ATTN (R127 to R132), the notice requests (R128, R133) and the
waits (R134, R135). -/

namespace Sys2Proof.Machine

/-! ### Sets of kinds -/

theorem NoticeKind.number_lt (k : NoticeKind) : k.number < 9 := by cases k <;> decide

theorem NoticeKind.exists_number {n : Nat} (h : n < 9) : ∃ k : NoticeKind, k.number = n := by
  match n, h with
  | 0, _ => exact ⟨.done, rfl⟩
  | 1, _ => exact ⟨.failed, rfl⟩
  | 2, _ => exact ⟨.overflow, rfl⟩
  | 3, _ => exact ⟨.queueSpace, rfl⟩
  | 4, _ => exact ⟨.idle, rfl⟩
  | 5, _ => exact ⟨.commit, rfl⟩
  | 6, _ => exact ⟨.temp, rfl⟩
  | 7, _ => exact ⟨.sensor, rfl⟩
  | 8, _ => exact ⟨.rail, rfl⟩

theorem KindSet.ne_zero_iff (A : KindSet) : A ≠ 0#9 ↔ ∃ n, n < 9 ∧ A.getLsbD n = true := by
  rw [← not_iff_not]
  push Not
  refine ⟨fun h n _ => by simp [h], fun h => BitVec.eq_of_getLsbD_eq fun n hn => ?_⟩
  simpa using h n hn

/-- Two sets of kinds meet exactly where a kind is in both. -/
theorem KindSet.inter_ne_zero_iff (A B : KindSet) :
    A &&& B ≠ 0#9 ↔ ∃ k : NoticeKind, KindSet.mem k A = true ∧ KindSet.mem k B = true := by
  rw [KindSet.ne_zero_iff]
  constructor
  · rintro ⟨n, hn, hmem⟩
    obtain ⟨k, rfl⟩ := NoticeKind.exists_number hn
    rw [BitVec.getLsbD_and, Bool.and_eq_true] at hmem
    exact ⟨k, hmem⟩
  · rintro ⟨k, hA, hB⟩
    refine ⟨k.number, k.number_lt, ?_⟩
    rw [BitVec.getLsbD_and, Bool.and_eq_true]
    exact ⟨hA, hB⟩

theorem KindSet.mem_sdiff (k : NoticeKind) (A B : KindSet) :
    KindSet.mem k (A &&& ~~~B) = (KindSet.mem k A && !KindSet.mem k B) := by
  simp [KindSet.mem, k.number_lt]

theorem KindSet.mem_bit (j k : NoticeKind) : KindSet.mem j k.bit = decide (j = k) := by
  have h := KindSet.mem_raise k j 0#9
  rwa [BitVec.zero_or, show KindSet.mem j 0#9 = false from BitVec.getLsbD_zero, Bool.false_or] at h

theorem getLsbD_maskAt (p : List Byte) (i : Nat) {n : Nat} (h : n < 9) :
    (maskAt p i).getLsbD n = (u16At p i).testBit n := by
  rw [maskAt, BitVec.getLsbD_ofNat, decide_eq_true h, Bool.true_and]

/-- The line in mode LEVEL once it is drawn, by the kinds pending and enabled. -/
theorem State.drawAttn_level_iff (s : State) (c : Bool) (h : s.notice.mode = .level) :
    (s.drawAttn c).link.attn = true ↔ s.link.replies ≠ [] ∨ ∃ k : NoticeKind,
      KindSet.mem k s.notice.kinds = true ∧ KindSet.mem k s.notice.enables = true := by
  rw [State.drawAttn_level s c h, State.attnCondition_iff, KindSet.inter_ne_zero_iff]

/-! ### What an event does to the notices -/

/-- A kind that one of the records raises as they join a completion list that holds `n` records (R106, R127, R131, R132). -/
def recordsRaise (n : Nat) (made : List CompletionRecord) : NoticeKind → Prop
  | .done => made ≠ []
  | .failed => ∃ r ∈ made, r.outcome ≠ .done
  | .overflow => 16 < n + made.length
  | _ => False

/-- An event that places and removes no reply made the records of `made` join the completion list and raised the kinds of
`raised`, and changed the notices and the link in nothing else. -/
structure Notified (made : List CompletionRecord) (raised : NoticeKind → Prop) (s t : State) : Prop where
  notice : t.notice = { s.notice with
    kinds := t.notice.kinds, records := (s.notice.records ++ made).drop ((s.notice.records ++ made).length - 16) }
  kinds : ∀ k, KindSet.mem k t.notice.kinds = true ↔ KindSet.mem k s.notice.kinds = true ∨ raised k
  link : t.link = { s.link with attn := t.link.attn }
  pulse : s.notice.mode = .pulse → (t.link.attn = true ↔ s.link.attn = true ∨ ∃ k : NoticeKind,
    KindSet.mem k t.notice.kinds = true ∧ KindSet.mem k s.notice.enables = true ∧ KindSet.mem k s.notice.kinds = false)

/-- A kind raised where a condition holds. -/
def State.raiseIf (p : Prop) [Decidable p] (k : NoticeKind) (s : State) : State := if p then s.raise k else s

/-- A record that joins, its kinds raised first: raising a kind neither reads nor changes the records. -/
theorem State.joinRecord_eq {s : State} (r : CompletionRecord) (hrecords : s.notice.records.length ≤ 16) : s.joinRecord r =
    { ((s.raiseIf (16 ≤ s.notice.records.length) .overflow).raiseIf True .done).raiseIf (r.outcome ≠ .done) .failed with
      notice.records := (s.notice.records ++ [r]).drop ((s.notice.records ++ [r]).length - 16) } := by
  have hjoined : (s.notice.records ++ [r]).drop ((s.notice.records ++ [r]).length - 16) =
      (s.joinRecord r).notice.records := by
    rw [State.joinRecord_records, List.length_append, List.length_singleton]
    split
    · rw [show s.notice.records.length + 1 - 16 = 1 by omega, List.drop_one,
        List.tail_append_of_ne_nil (List.ne_nil_of_length_pos (by omega))]
    · rw [show s.notice.records.length + 1 - 16 = 0 by omega, List.drop_zero]
  have htrue : ∀ u : State, u.raiseIf True .done = u.raise .done := fun u => if_pos trivial
  rw [hjoined, htrue]
  by_cases hfull : 16 ≤ s.notice.records.length <;> by_cases hdone : r.outcome = .done <;>
    simp only [State.raiseIf, State.joinRecord, Config.recordCapacity, hfull, hdone, if_true, if_false, ne_eq,
      not_true_eq_false, not_false_eq_true] <;> rfl

namespace Notified

variable {s t u : State} {made more : List CompletionRecord} {raised raised' : NoticeKind → Prop}

theorem records (h : Notified made raised s t) :
    t.notice.records = (s.notice.records ++ made).drop ((s.notice.records ++ made).length - 16) := by rw [h.notice]

theorem enables (h : Notified made raised s t) : t.notice.enables = s.notice.enables := by rw [h.notice]

theorem mode (h : Notified made raised s t) : t.notice.mode = s.notice.mode := by rw [h.notice]

theorem replies (h : Notified made raised s t) : t.link.replies = s.link.replies := by rw [h.link]

theorem congr (h : Notified made raised s t) (hraised : ∀ k, raised' k ↔ raised k) : Notified made raised' s t :=
  ⟨h.notice, fun k => (h.kinds k).trans (or_congr_right (hraised k).symm), h.link, h.pulse⟩

theorem records_length_le (h : Notified made raised s t) : t.notice.records.length ≤ 16 := by
  rw [h.records, List.length_drop]
  omega

/-- An event that leaves the notices and the link alone. -/
theorem same (hrecords : s.notice.records.length ≤ 16) (hnotice : t.notice = s.notice) (hlink : t.link = s.link) :
    Notified [] (fun _ => False) s t := by
  refine ⟨?_, fun k => by rw [hnotice, or_false], by rw [hlink], fun _ => ?_⟩
  · have hzero : s.notice.records.length - 16 = 0 := by omega
    rw [hnotice, List.append_nil, hzero, List.drop_zero]
  · rw [hnotice, hlink]
    refine ⟨.inl, fun h => h.elim id ?_⟩
    rintro ⟨k, hmem, -, hnone⟩
    cases hmem.symm.trans hnone

/-- The kinds pending, enabled and new after two events are those new after the one or the other. -/
theorem trans (h : Notified made raised s t) (h' : Notified more raised' t u) :
    Notified (made ++ more) (fun k => raised k ∨ raised' k) s u := by
  refine ⟨?_, fun k => by rw [h'.kinds, h.kinds, or_assoc], ?_, fun hmode => ?_⟩
  · rw [h'.notice, h.records, h.notice]
    have hdrop : ((s.notice.records ++ made).drop ((s.notice.records ++ made).length - 16) ++ more).drop
        (((s.notice.records ++ made).drop ((s.notice.records ++ made).length - 16) ++ more).length - 16) =
        (s.notice.records ++ (made ++ more)).drop ((s.notice.records ++ (made ++ more)).length - 16) := by
      rw [← List.append_assoc]
      generalize s.notice.records ++ made = all
      rw [← List.drop_append_of_le_length (by omega), List.drop_drop]
      congr 1
      simp only [List.length_append, List.length_drop]
      omega
    rw [hdrop]
  · rw [h'.link, h.link]
  · rw [h'.pulse (h.mode.trans hmode), h.pulse hmode, h.enables]
    constructor
    · rintro ((hattn | ⟨k, hmem, hon, hnew⟩) | ⟨k, hmem, hon, hnew⟩)
      · exact .inl hattn
      · exact .inr ⟨k, (h'.kinds k).2 (.inl hmem), hon, hnew⟩
      · refine .inr ⟨k, hmem, hon, ?_⟩
        rw [Bool.eq_false_iff] at hnew ⊢
        exact fun hold => hnew ((h.kinds k).2 (.inl hold))
    · rintro (hattn | ⟨k, hmem, hon, hnew⟩)
      · exact .inl (.inl hattn)
      · by_cases hmid : KindSet.mem k t.notice.kinds = true
        · exact .inl (.inr ⟨k, hmid, hon, hnew⟩)
        · exact .inr ⟨k, hmem, hon, Bool.eq_false_iff.2 hmid⟩

theorem raise (k : NoticeKind) (hrecords : s.notice.records.length ≤ 16) : Notified [] (· = k) s (s.raise k) := by
  have hzero : s.notice.records.length - 16 = 0 := by omega
  refine ⟨?_, fun j => ?_, rfl, fun hmode => ?_⟩
  · rw [List.append_nil, hzero, List.drop_zero]
    rfl
  · rw [State.raise_kinds, KindSet.mem_raise, Bool.or_eq_true, decide_eq_true_eq]
  · rw [State.raise_pulse k s hmode, State.raise_kinds, Bool.or_eq_true, Bool.and_eq_true, Bool.not_eq_true']
    refine or_congr_right ⟨fun ⟨hon, hnew⟩ => ⟨k, by simp [KindSet.mem_raise], hon, hnew⟩, ?_⟩
    rintro ⟨j, hmem, hon, hnew⟩
    rw [KindSet.mem_raise, hnew, Bool.false_or, decide_eq_true_eq] at hmem
    exact hmem ▸ ⟨hon, hnew⟩

theorem refl (hrecords : s.notice.records.length ≤ 16) : Notified [] (fun _ => False) s s := same hrecords rfl rfl

theorem raiseIf (h : Notified made raised s t) (p : Prop) [Decidable p] (k : NoticeKind) :
    Notified made (fun j => raised j ∨ p ∧ j = k) s (t.raiseIf p k) := by
  rw [State.raiseIf]
  split
  · next hp => exact (List.append_nil made ▸ h.trans (raise k h.records_length_le)).congr fun j => by simp [hp]
  · next hp => exact h.congr fun j => by simp [hp]

/-- Kinds raised, and records that join the completion list beside them. -/
theorem withRecords (h : Notified [] raised s t) (made : List CompletionRecord) :
    Notified made raised s { t with
      notice.records := (s.notice.records ++ made).drop ((s.notice.records ++ made).length - 16) } :=
  ⟨by rw [h.notice], h.kinds, h.link, h.pulse⟩

/-- A record joins the completion list: the oldest of sixteen leaves first and raises OVERFLOW, DONE is pending, and an outcome
other than DONE raises FAILED. -/
theorem record (r : CompletionRecord) (hrecords : s.notice.records.length ≤ 16) :
    Notified [r] (recordsRaise s.notice.records.length [r]) s (s.joinRecord r) := by
  have hnotified := (((refl hrecords).raiseIf (16 ≤ s.notice.records.length) .overflow).raiseIf True .done).raiseIf
    (r.outcome ≠ .done) .failed
  rw [State.joinRecord_eq r hrecords]
  exact (hnotified.withRecords [r]).congr fun k => by cases k <;> simp [recordsRaise]

end Notified

/-! ### Kinds raised and records joined -/

theorem State.raise_level_iff (k : NoticeKind) (s : State) (h : s.notice.mode = .level) :
    (s.raise k).link.attn = true ↔ s.link.replies ≠ [] ∨ ∃ j : NoticeKind,
      KindSet.mem j (s.raise k).notice.kinds = true ∧ KindSet.mem j s.notice.enables = true :=
  State.drawAttn_level_iff { s with notice.kinds := s.notice.kinds ||| k.bit } _ h

theorem State.joinRecord_level_iff (r : CompletionRecord) (s : State) (h : s.notice.mode = .level) :
    (s.joinRecord r).link.attn = true ↔ s.link.replies ≠ [] ∨ ∃ j : NoticeKind,
      KindSet.mem j (s.joinRecord r).notice.kinds = true ∧ KindSet.mem j s.notice.enables = true := by
  have hlast : ∃ u k, s.joinRecord r = State.raise k u := by
    rw [State.joinRecord]
    split <;> split <;> exact ⟨_, _, rfl⟩
  obtain ⟨u, k, hu⟩ := hlast
  have hmode : u.notice.mode = s.notice.mode := by rw [← State.joinRecord_mode r s, hu, State.raise_mode]
  have hreplies : u.link.replies = s.link.replies := by rw [← State.joinRecord_replies r s, hu, State.raise_replies]
  have henables : u.notice.enables = s.notice.enables := by rw [← State.joinRecord_enables r s, hu, State.raise_enables]
  rw [hu, State.raise_level_iff k u (hmode.trans h), hreplies, henables]

theorem State.raised (k : NoticeKind) (s : State) :
    let t := s.raise k
    t = { s with notice.kinds := t.notice.kinds, link.attn := t.link.attn } ∧
    (∀ j : NoticeKind, KindSet.mem j t.notice.kinds = true ↔ j = k ∨ KindSet.mem j s.notice.kinds = true) ∧
    (s.notice.mode = .level → (t.link.attn = true ↔ s.link.replies ≠ [] ∨ ∃ j : NoticeKind,
      KindSet.mem j t.notice.kinds = true ∧ KindSet.mem j s.notice.enables = true)) ∧
    (s.notice.mode = .pulse → (t.link.attn = true ↔ s.link.attn = true ∨
      KindSet.mem k s.notice.enables = true ∧ KindSet.mem k s.notice.kinds = false)) := by
  refine ⟨rfl, fun j => ?_, State.raise_level_iff k s, fun hmode => ?_⟩
  · rw [State.raise_kinds, KindSet.mem_raise, Bool.or_eq_true, decide_eq_true_eq, or_comm]
  · rw [State.raise_pulse k s hmode, Bool.or_eq_true, Bool.and_eq_true, Bool.not_eq_true']

/-- The state after a record joined, by the notices it changed. -/
theorem State.joinRecord_state (r : CompletionRecord) {s : State} (hrecords : s.notice.records.length ≤ 16) :
    s.joinRecord r = { s with
      notice := { s.notice with
        kinds := (s.joinRecord r).notice.kinds,
        records := (s.notice.records ++ [r]).drop ((s.notice.records ++ [r]).length - 16) },
      link.attn := (s.joinRecord r).link.attn } := by
  have hjoined := Notified.record r hrecords
  have hstate : s.joinRecord r = { s with notice := (s.joinRecord r).notice, link := (s.joinRecord r).link } := by
    rw [State.joinRecord]
    split <;> split <;> rfl
  exact hstate.trans (congrArg₂ (fun n l => ({ s with notice := n, link := l } : State)) hjoined.notice hjoined.link)

theorem State.attnHigh_iff (s : State) : (s.notice.polarity = .activeLow → (s.attnHigh = true ↔ s.link.attn = false)) ∧
    (s.notice.polarity = .activeHigh → (s.attnHigh = true ↔ s.link.attn = true)) := by
  refine ⟨fun h => ?_, fun h => ?_⟩
  · rw [State.attnHigh, h]
    simp
  · rw [State.attnHigh, h]
    simp

/-! ### SET_NOTICES -/

theorem AttnMode.ofCode_of_lt {n : Nat} (h : 1 < n) : AttnMode.ofCode n = none := by
  match n, h with
  | _ + 2, _ => rfl

theorem Polarity.ofCode_of_lt {n : Nat} (h : 1 < n) : Polarity.ofCode n = none := by
  match n, h with
  | _ + 2, _ => rfl

theorem setNoticesBody_of_bad {f : Frame} {s : State} (h : 1 < u8At f.payload 4 ∨ 1 < u8At f.payload 5) :
    setNoticesBody f s = refuse .badField s := by
  rcases h with h | h
  · simp only [setNoticesBody, AttnMode.ofCode_of_lt h]
  · rw [setNoticesBody, Polarity.ofCode_of_lt h]
    cases AttnMode.ofCode (u8At f.payload 4) <;> rfl

/-- The enable set after the kinds marked to be set have joined it and those marked to be cleared have left (R128). -/
def enablesAfter (p : List Byte) (enables : KindSet) : KindSet := (enables ||| maskAt p 0) &&& ~~~(maskAt p 2)

theorem getLsbD_enablesAfter (p : List Byte) (enables : KindSet) {n : Nat} (h : n < 9) :
    (enablesAfter p enables).getLsbD n = ((enables.getLsbD n || (u16At p 0).testBit n) && !(u16At p 2).testBit n) := by
  simp only [enablesAfter, BitVec.getLsbD_and, BitVec.getLsbD_or, BitVec.getLsbD_not, getLsbD_maskAt _ _ h, decide_eq_true h,
    Bool.true_and]

/-- The state a SET_NOTICES leaves to its reply: in mode PULSE the kinds it enables itself are a pulse cause (R130). -/
def State.noticesSet (s : State) (p : List Byte) (mode : AttnMode) (polarity : Polarity) : State :=
  ({ s with
    notice := { s.notice with enables := enablesAfter p s.notice.enables, mode := mode, polarity := polarity },
    link.attn := s.link.attn && s.notice.mode = .pulse } : State).drawAttn
    (s.notice.kinds &&& enablesAfter p s.notice.enables &&& ~~~s.notice.enables != 0#9)

theorem setNoticesBody_of_codes {f : Frame} {s : State} {mode : AttnMode} {polarity : Polarity}
    (hmode : u8At f.payload 4 = mode.code) (hpolarity : u8At f.payload 5 = polarity.code) : setNoticesBody f s =
      answerOk (encU16 (enablesAfter f.payload s.notice.enables).toNat ++
        [BitVec.ofNat 8 mode.code, BitVec.ofNat 8 polarity.code]) (s.noticesSet f.payload mode polarity) := by
  simp only [setNoticesBody, (AttnMode.ofCode_eq_some _ _).2 hmode, (Polarity.ofCode_eq_some _ _).2 hpolarity]
  rfl

/-- The line after SET_NOTICES has drawn it in mode PULSE (R130). -/
theorem State.noticesSet_pulse_iff (s : State) (p : List Byte) (polarity : Polarity) :
    (s.noticesSet p .pulse polarity).link.attn = true ↔ s.notice.mode = .pulse ∧ s.link.attn = true ∨ ∃ n : Nat, n < 9 ∧
      s.notice.kinds.getLsbD n = true ∧ (enablesAfter p s.notice.enables).getLsbD n = true ∧
      s.notice.enables.getLsbD n = false := by
  have hgained : s.notice.kinds &&& enablesAfter p s.notice.enables &&& ~~~s.notice.enables ≠ 0#9 ↔ ∃ n : Nat, n < 9 ∧
      s.notice.kinds.getLsbD n = true ∧ (enablesAfter p s.notice.enables).getLsbD n = true ∧
      s.notice.enables.getLsbD n = false := by
    rw [KindSet.ne_zero_iff]
    refine exists_congr fun n => and_congr_right fun hn => ?_
    simp [hn, and_assoc]
  rw [← hgained, State.noticesSet, State.drawAttn_pulse _ _ rfl, Bool.or_eq_true, Bool.and_eq_true, decide_eq_true_eq,
    bne_iff_ne, and_comm]

/-- The reply of SET_NOTICES makes the line active in mode LEVEL and, into an empty queue, in mode PULSE. -/
theorem State.attn_pushReply (s : State) (r : Reply) :
    (s.notice.mode = .level → (s.pushReply r).link.attn = true) ∧
    (s.notice.mode = .pulse → ((s.pushReply r).link.attn = true ↔ s.link.replies = [] ∨ s.link.attn = true)) := by
  rw [State.pushReply_eq]
  refine ⟨fun hmode => if_pos hmode, fun hmode => ?_⟩
  dsimp only
  rw [hmode, if_neg (by decide)]
  by_cases hempty : s.link.replies = []
  · simp [hempty]
  · simp [hempty]

theorem exec_setNotices {s : State} {f : Frame} (h : s.offers f) (hk : f.kind = 0x80#8) (hn : f.payload.length = 6) :
    exec .setNotices s = .next (answerFrame f (setNoticesBody f s.released)) :=
  fixedRequest_of_offers (kind := Kind.setNotices) h hk hn

theorem noticesSet_outcomes {s : State} {f : Frame} (h : s.offers f) (hk : f.kind = 0x80#8)
    (hn : f.payload.length = 6) {mode : AttnMode} {polarity : Polarity} (hmode : u8At f.payload 4 = mode.code)
    (hpolarity : u8At f.payload 5 = polarity.code) :
    ∃ (enables : KindSet) (attn : Bool),
      (∀ n : Nat, n < 9 → enables.getLsbD n = ((s.notice.enables.getLsbD n || (u16At f.payload 0).testBit n) &&
        !(u16At f.payload 2).testBit n)) ∧
      (let answered : State := ({ s.released with
          notice := { s.notice with enables := enables, mode := mode, polarity := polarity } } : State).replied f .ok
            (encU16 enables.toNat ++ [BitVec.ofNat 8 mode.code, BitVec.ofNat 8 polarity.code])
      exec .setNotices s = .next { answered with link.attn := attn }) ∧
      (mode = .level → attn = true) ∧
      (mode = .pulse → (attn = true ↔ s.notice.mode = .pulse ∧ s.link.attn = true ∨ s.link.replies = [] ∨
        ∃ n : Nat, n < 9 ∧ s.notice.kinds.getLsbD n = true ∧ enables.getLsbD n = true ∧
          s.notice.enables.getLsbD n = false)) := by
  obtain ⟨hlevel, hpulse⟩ := (s.released.noticesSet f.payload mode polarity).attn_pushReply
    { kind := f.kind, tag := f.tag, status := .ok,
      payload := encU16 (enablesAfter f.payload s.notice.enables).toNat ++
        [BitVec.ofNat 8 mode.code, BitVec.ofNat 8 polarity.code] }
  refine ⟨enablesAfter f.payload s.notice.enables, _, fun n hlt => getLsbD_enablesAfter _ _ hlt, ?_, hlevel,
    fun hm => (hpulse hm).trans ?_⟩
  · rw [exec_setNotices h hk hn, setNoticesBody_of_codes hmode hpolarity]
    rfl
  · subst hm
    rw [State.noticesSet_pulse_iff, or_left_comm]
    rfl

/-! ### FETCH_NOTICES -/

theorem encSlotNo_eq (o : Option (Fin 16)) : encSlotNo o = [o.elim 0xFF#8 fun k => BitVec.ofNat 8 k.val] := by
  cases o <;> rfl

/-- A completion record as it is reported (TABLE 10-10). -/
theorem encRecord_eq (r : CompletionRecord) : encRecord r =
    [r.tag.extractLsb' 0 8, r.tag.extractLsb' 8 8, r.slot.elim 0xFF#8 fun k => BitVec.ofNat 8 k.val,
      BitVec.ofNat 8 r.outcome.code, BitVec.ofNat 8 r.effective.code,
      BitVec.ofNat 8 ((if r.escalated then 1 else 0) + (if r.recovery then 2 else 0)),
      BitVec.ofNat 8 r.band.val, BitVec.ofNat 8 r.frames] ++ encTileRect r.hull := by
  rw [encRecord, encTag_eq, encSlotNo_eq]
  rfl

/-- The kinds that a FETCH_NOTICES takes out of the pending set (R133). -/
def kindsFetched (p : List Byte) (left : List CompletionRecord) : KindSet :=
  if left.isEmpty then (maskAt p 0 &&& ~~~NoticeKind.done.bit) ||| NoticeKind.done.bit
  else maskAt p 0 &&& ~~~NoticeKind.done.bit

theorem mem_kindsFetched (p : List Byte) (left : List CompletionRecord) (k : NoticeKind) :
    KindSet.mem k (kindsFetched p left) =
      if k = .done then left.isEmpty else (u16At p 0).testBit k.number := by
  have hmask : KindSet.mem k (maskAt p 0) = (u16At p 0).testBit k.number := getLsbD_maskAt p 0 k.number_lt
  rw [kindsFetched]
  cases left.isEmpty with
  | true =>
    rw [if_pos rfl, KindSet.mem_raise, KindSet.mem_sdiff, KindSet.mem_bit, hmask]
    by_cases hk : k = .done <;> simp [hk]
  | false =>
    rw [if_neg (by decide), KindSet.mem_sdiff, KindSet.mem_bit, hmask]
    by_cases hk : k = .done <;> simp [hk]

/-- The line after a reply is that of the reply alone where only the draw of a kept cause came before it. -/
theorem State.pushReply_drawAttn (r : Reply) (s : State) : (s.drawAttn false).pushReply r = s.pushReply r := by
  rw [State.pushReply_eq, State.pushReply_eq]
  cases hmode : s.notice.mode with
  | level => simp [State.drawAttn, hmode]
  | pulse => simp [State.drawAttn, hmode]

theorem exec_fetchNotices {s : State} {f : Frame} (h : s.offers f) (hk : f.kind = 0x81#8) (hn : f.payload.length = 2) :
    exec .fetchNotices s = .next (({ s.released with
        notice := { s.notice with
          kinds := s.notice.kinds &&& ~~~kindsFetched f.payload (s.notice.records.drop 8),
          records := s.notice.records.drop 8 } } : State).replied f .ok
      (encU16 s.notice.kinds.toNat ++ encU8 (s.notice.records.drop 8).length ++ encU8 (s.notice.records.take 8).length ++
        (s.notice.records.take 8).flatMap encRecord)) := by
  refine (fixedRequest_of_offers (kind := Kind.fetchNotices) h hk hn).trans (congrArg _ ?_)
  exact State.pushReply_drawAttn _ ({ s.released with
    notice := { s.notice with
      kinds := s.notice.kinds &&& ~~~kindsFetched f.payload (s.notice.records.drop 8),
      records := s.notice.records.drop 8 } } : State)

/-- Settles O58, part by part: kinds raised and records joined, SET_NOTICES, and FETCH_NOTICES. -/
theorem noticesSetAndFetched : Obligations.NoticesSetAndFetched := by
  refine ⟨⟨State.raised, fun r s hrecords => ?_, State.attnHigh_iff⟩, fun s f h hk hn => ⟨fun hbad => ?_, fun mode polarity =>
    noticesSet_outcomes h hk hn⟩, fun s f h hk hn _ =>
      ⟨s.notice.kinds &&& ~~~kindsFetched f.payload (s.notice.records.drop 8), ?_, fun k hdone => ?_, ?_⟩⟩
  · have hjoined := Notified.record r hrecords
    refine ⟨State.joinRecord_state r hrecords, fun k => (hjoined.kinds k).trans (or_congr_right ?_),
      State.joinRecord_level_iff r s, hjoined.pulse⟩
    cases k <;> simp [recordsRaise]
    omega
  · rw [exec_setNotices h hk hn, setNoticesBody_of_bad hbad]
    rfl
  · rw [exec_fetchNotices h hk hn, List.length_drop, List.length_take, List.flatMap_def,
      List.append_assoc (encU16 s.notice.kinds.toNat)]
    refine congrArg (fun reports : List (List Byte) => Host.Outcome.next (State.replied _ f .ok (_ ++ _ ++ reports.flatten)))
      (List.map_congr_left fun r _ => (encRecord_eq r).trans ?_)
    obtain ⟨tag, slot, outcome, effective, escalated, recovery, band, frames, hull⟩ := r
    cases slot <;> cases outcome <;> exact rfl
  · rw [KindSet.mem_sdiff, mem_kindsFetched, if_neg hdone, Bool.and_eq_true, Bool.not_eq_true']
  · rw [KindSet.mem_sdiff, mem_kindsFetched, if_pos rfl, Bool.and_eq_true, Bool.not_eq_true', List.isEmpty_eq_false_iff,
      ne_eq, List.drop_eq_nil_iff, Nat.not_le]

end Sys2Proof.Machine
end


section
/-! PROOF. The waits (R134, R135), the millisecond (R75) and the events of the rails (R115 to R124). -/

namespace Sys2Proof.Machine

/-! ### WAIT_UPDATE and the ends of waits -/

theorem exec_waitUpdate {s : State} {f : Frame} (h : s.offers f) (hk : f.kind = 0x82#8) (hn : f.payload.length = 4) :
    exec .waitUpdate s = .next (answerFrame f (waitUpdateBody f s.released)) :=
  fixedRequest_of_offers (kind := Kind.waitUpdate) h hk hn

theorem waitUpdateBody_of_uncarried {f : Frame} {s : State} (h : ¬ s.carries (tagAt f.payload 0) = true) :
    waitUpdateBody f s = answerOk (waitPayload (tagAt f.payload 0) 0) s := if_pos (by simpa using h)

theorem waitUpdateBody_of_full {f : Frame} {s : State} (h : s.carries (tagAt f.payload 0) = true)
    (hfull : 4 ≤ s.notice.waits.length + s.notice.ended.length) : waitUpdateBody f s = refuse .limit s :=
  (if_neg (by simpa using h)).trans (if_pos hfull)

theorem waitUpdateBody_of_joins {f : Frame} {s : State} (h : s.carries (tagAt f.payload 0) = true)
    (hroom : s.notice.waits.length + s.notice.ended.length < 4) : waitUpdateBody f s =
      { state := { s with notice.waits := s.notice.waits ++
          [{ requestTag := f.tag, waitedTag := tagAt f.payload 0, timeLeft := 5 * max 4 (u16At f.payload 2) }] },
        reply := none } :=
  (if_neg (by simpa using h)).trans (if_neg (Nat.not_le.2 hroom))

/-- A tag read from a payload is sent back as the two bytes it was read from. -/
theorem encTag_tagAt_zero {p : List Byte} (h : 2 ≤ p.length) : encTag (tagAt p 0) = p.take 2 := by
  match p, h with
  | a :: b :: rest, _ =>
    have hread : u16At (a :: b :: rest) 0 = a.toNat + 256 * b.toNat := rfl
    have ha := a.isLt
    have hb := b.isLt
    have htag : (tagAt (a :: b :: rest) 0).toNat = a.toNat + 256 * b.toNat := by
      rw [tagAt, hread, BitVec.toNat_ofNat]
      omega
    have hlow : BitVec.ofNat 8 (a.toNat + 256 * b.toNat) = a := by
      refine BitVec.eq_of_toNat_eq ?_
      rw [BitVec.toNat_ofNat]
      omega
    have hhigh : BitVec.ofNat 8 ((a.toNat + 256 * b.toNat) / 256) = b := by
      refine BitVec.eq_of_toNat_eq ?_
      rw [BitVec.toNat_ofNat]
      omega
    rw [encTag, encU16, htag, hlow, hhigh]
    rfl

/-- The first wait whose time is up, and the list without it. -/
theorem find?_expired {before after : List WaitEntry} {w : WaitEntry} (hbefore : ∀ v ∈ before, v.timeLeft ≠ 0)
    (hw : w.timeLeft = 0) :
    ((before ++ w :: after).find? fun w => decide (w.timeLeft = 0)) = some w ∧
    ((before ++ w :: after).eraseP fun w => decide (w.timeLeft = 0)) = before ++ after := by
  have hnone : ∀ v ∈ before, ¬ decide (v.timeLeft = 0) = true := fun v hv => by simpa using hbefore v hv
  constructor
  · rw [List.find?_append, List.find?_eq_none.2 hnone, Option.none_or]
    exact List.find?_cons_of_pos (by simpa using hw)
  · rw [List.eraseP_append_right _ hnone, List.eraseP_cons_of_pos (by simpa using hw)]

/-- Settles O59, part by part: the request, the end by time, the end by tag, and the end of a pulse. -/
theorem waitsTakenAndEnded : Obligations.WaitsTakenAndEnded := by
  refine ⟨fun s f h hk hn => ?_, fun s before after w hwaits hbefore hw => ?_, fun s tags => ?_, fun s hmode hattn =>
    if_pos ⟨hmode, hattn⟩⟩
  · intro waited carried
    have hcarried : s.carries waited = true ↔ carried := s.carries_iff waited
    obtain ⟨-, hended⟩ := State.canTake_iff.1 h.2
    rw [exec_waitUpdate h hk hn]
    refine ⟨fun hnone => ?_, fun hsome hfull => ?_, fun hsome hroom => ?_⟩
    · rw [waitUpdateBody_of_uncarried (s := s.released) (mt hcarried.1 hnone), waitPayload, encTag_tagAt_zero (by omega)]
      rfl
    · rw [waitUpdateBody_of_full (s := s.released) (hcarried.2 hsome) (Nat.le_add_right_of_le hfull)]
      rfl
    · rw [waitUpdateBody_of_joins (s := s.released) (hcarried.2 hsome)
        (show s.notice.waits.length + s.notice.ended.length < 4 by rwa [hended])]
      rfl
  · obtain ⟨hfind, herase⟩ := find?_expired (after := after) hbefore hw
    change execWaitTimeCheckExpiry s = _
    rw [execWaitTimeCheckExpiry, hwaits, hfind, herase]
  · have hgone : (fun w : WaitEntry => decide (w.waitedTag ∈ tags ∧ s.carries w.waitedTag = false)) =
        fun w => tags.contains w.waitedTag && !s.carries w.waitedTag := by
      funext w
      rw [Bool.eq_iff_iff]
      simp
    intro gone
    rw [show gone = _ from hgone]
    rfl

/-! ### The millisecond -/

theorem TileRecord.tick_eq : TileRecord.tick =
    fun r => if r.owner = none then { r with rest := min (r.rest + 1) 65535 } else r := by
  funext r
  obtain ⟨owner, condition, residue, charge, rest⟩ := r
  cases owner <;> rfl

theorem RailState.tick_rising_iff (r : RailState) : (∃ n, r.tick = .rising (n + 1)) ↔ ∃ n, r = .rising (n + 2) := by
  cases r with
  | rising n =>
    simp only [RailState.tick, RailState.rising.injEq]
    exact exists_congr fun m => by omega
  | _ => simp [RailState.tick]

/-- Settles O49: the timers stepped, and the PWR_GOOD found in the millisecond. -/
theorem millisecondStepped : Obligations.MillisecondStepped := by
  intro s u
  have hstepped : s.stepTimers = u := by
    rw [State.stepTimers, TileRecord.tick_eq]
    rfl
  have hexec : exec .timebaseTick s = .next (if s.stepTimers.pwrGoodDue then s.stepTimers.enterOn else s.stepTimers) := rfl
  have hdue : s.stepTimers.pwrGoodDue = true ↔ (∃ n, s.rail.state = .rising (n + 2)) ∧ s.rail.pwrGood = true :=
    (State.pwrGoodDue_iff _).trans (and_congr_left' (RailState.tick_rising_iff s.rail.state))
  rw [hexec]
  refine ⟨fun hnot => ?_, fun n hrising hn hgood => ?_⟩
  · rw [if_neg, hstepped]
    rw [hdue]
    rintro ⟨⟨n, hrising⟩, hgood⟩
    rcases hnot with hshort | hbad
    · have := hshort _ hrising
      omega
    · cases hgood.symm.trans hbad
  · have hlong : n = n - 2 + 2 := by omega
    rw [if_pos (hdue.2 ⟨⟨n - 2, hlong ▸ hrising⟩, hgood⟩), hstepped]
    rfl

/-! ### The rails -/

theorem exec_pwrGoodActive_of_rising {s : State} {n : Nat} (h : s.rail.state = .rising n) :
    exec .pwrGoodActive s = .next (if s.pwrGoodDue then s else ({ s with rail.pwrGood := true } : State).enterOn) := by
  change execPwrGoodActive s = _
  simp only [execPwrGoodActive, h]

theorem exec_pwrGoodActive_of_not_rising {s : State} (h : ∀ n, s.rail.state ≠ .rising n) :
    exec .pwrGoodActive s = .next { s with rail.pwrGood := true } := by
  change execPwrGoodActive s = _
  rw [execPwrGoodActive]
  cases hr : s.rail.state with
  | rising n => exact absurd hr (h n)
  | _ => rfl

theorem exec_railResume {s : State} {f : Frame} (h : s.offers f) (hk : f.kind = 0x71#8) (hn : f.payload = []) :
    exec .railResume s = .next (answerFrame f (railResumeBody f s.released)) :=
  fixedRequest_of_offers (kind := Kind.railResume) h hk (by rw [hn]; rfl)

/-- Settles O55, event by event. -/
theorem railEvents : Obligations.RailEvents := by
  refine ⟨⟨fun s n hrising => ⟨fun hfound => ?_, fun hn hgood => ?_⟩, fun s => exec_pwrGoodActive_of_not_rising,
    fun s hstate => if_pos hstate, fun s hstate => ?_, fun s hstate => if_neg hstate, fun s => ?_⟩,
    fun s f h hk hn => ⟨fun cause hstate => ?_, fun hstate => ?_⟩⟩
  · rw [exec_pwrGoodActive_of_rising hrising, if_neg]
    · rfl
    · rw [State.pwrGoodDue_iff]
      rintro ⟨⟨m, hm⟩, hgood⟩
      cases hrising.symm.trans hm
      rcases hfound with hzero | hbad
      · cases hzero
      · cases hgood.symm.trans hbad
  · have hpos : n = n - 1 + 1 := by omega
    rw [exec_pwrGoodActive_of_rising hrising, if_pos ((State.pwrGoodDue_iff s).2 ⟨⟨n - 1, hpos ▸ hrising⟩, hgood⟩)]
  · refine (if_pos hstate).trans ?_
    cases s.sched.queue <;> simp [State.enterRising]
  · rw [State.railEn]
    cases s.rail.state <;> simp
  · rw [exec_railResume h hk hn]
    have hbody : railResumeBody f s.released =
        answerOk (encU8 3 ++ encU8 (RailState.faulted cause).causeCode) s.released.enterFalling := by
      rw [railResumeBody, State.released_rail, hstate]
      rfl
    rw [hbody]
    cases cause <;> rfl
  · rw [exec_railResume h hk hn]
    have hbody : railResumeBody f s.released = answerOk (encU8 s.rail.state.code ++ encU8 0) s.released := by
      rw [railResumeBody, State.released_rail]
      cases hr : s.rail.state with
      | faulted cause => exact absurd hr (hstate cause)
      | _ => rfl
    rw [hbody]
    rfl

end Sys2Proof.Machine
end


section
/-! PROOF. Chapter 6, the driven frame: no pixel lies in two drive sets, so a pixel receives the code of one slot (R101). -/

namespace Sys2Proof.Machine

/-- A pixel of a drive set lies on the panel, in a tile of the slot's hull. -/
theorem PixelStore.driveSet_has {p : PixelStore} {sl : Slot} {x y : Nat} (hk : p.kept sl.rect sl.hull)
    (h : (p.driveSet sl).has x y = true) : x < p.width ∧ y < p.height ∧ sl.hull.has (x / 32) (y / 32) = true := by
  obtain ⟨hright, hbottom, hw, hh, hhull⟩ := hk
  rw [PixelStore.driveSet] at h
  split at h
  · exact (p.extent_has _ _ _).1 h
  · have hin := (Rect.has_iff _ _ _).1 h
    exact ⟨by omega, by omega, hhull ▸ (hullOf_has hw hh _ _).2 ⟨x, y, h, rfl, rfl⟩⟩

/-- The tile of a pixel in a drive set is on the grid, and owned by the slot. -/
theorem State.owner_of_drive {s : State} (ho : s.ownersSound) (hr : s.rectsSound) {i : Fin 16} {sl : Slot} {x y : Nat}
    (hsl : s.frame.slots[i] = some sl) (h : (s.pixel.driveSet sl).has x y = true) :
    x / 32 < s.pixel.tileCols ∧ y / 32 < s.pixel.tileRows ∧ (s.tile (x / 32) (y / 32)).owner = some i := by
  obtain ⟨hx, hy, hhull⟩ := PixelStore.driveSet_has (hr.slot_kept hsl) h
  obtain ⟨-, hcols, hrows, -, -⟩ := hr
  have hcol : x / 32 < s.pixel.tileCols := by omega
  have hrow : y / 32 < s.pixel.tileRows := by omega
  exact ⟨hcol, hrow, (ho.2 _ _ i hcol hrow).2 ⟨sl, hsl, hhull⟩⟩

/-- No pixel lies in the drive sets of two active slots. -/
theorem State.drives_disjoint {s : State} (ho : s.ownersSound) (hr : s.rectsSound) {i j : Fin 16} {u v : Slot} {x y : Nat}
    (hu : s.frame.slots[i] = some u) (hv : s.frame.slots[j] = some v) (hux : (s.pixel.driveSet u).has x y = true)
    (hvx : (s.pixel.driveSet v).has x y = true) : i = j := by
  obtain ⟨-, -, hi⟩ := State.owner_of_drive ho hr hu hux
  obtain ⟨-, -, hj⟩ := State.owner_of_drive ho hr hv hvx
  exact Option.some.inj (hi.symm.trans hj)

theorem State.formedCode_of_drive {s : State} (ho : s.ownersSound) (hr : s.rectsSound) {i : Fin 16} {sl : Slot} {x y : Nat}
    (hsl : s.frame.slots[i] = some sl) (h : (s.pixel.driveSet sl).has x y = true) :
    s.formedCode x y = s.slotCode sl x y := by
  have hactive : (i, sl) ∈ s.frame.active := (s.frame.mem_active i sl).2 hsl
  obtain ⟨⟨j, v⟩, hfind⟩ := Option.isSome_iff_exists.1 ((List.find?_isSome
    (p := fun q : Fin 16 × Slot => (s.pixel.driveSet q.2).has x y)).2 ⟨(i, sl), hactive, h⟩)
  have hv := (s.frame.mem_active j v).1 (List.mem_of_find?_eq_some hfind)
  have hin := List.find?_some (p := fun q : Fin 16 × Slot => (s.pixel.driveSet q.2).has x y) hfind
  have hij := State.drives_disjoint ho hr hsl hv h hin
  subst hij
  cases hsl.symm.trans hv
  simp only [State.formedCode, hfind]

theorem State.formedCode_of_no_drive {s : State} {x y : Nat}
    (h : ∀ (i : Fin 16) (sl : Slot), s.frame.slots[i] = some sl → (s.pixel.driveSet sl).has x y = false) :
    s.formedCode x y = .rest := by
  have hfind : (s.frame.active.find? fun q => (s.pixel.driveSet q.2).has x y) = none := by
    refine List.find?_eq_none.2 fun q hq => ?_
    rw [h q.1 q.2 ((s.frame.mem_active q.1 q.2).1 hq)]
    decide
  simp only [State.formedCode, hfind]

/-- Settles O54: the drive sets disjoint, the code of the one slot, and no drive elsewhere. -/
theorem oneCodePerPixel : Obligations.OneCodePerPixel := by
  refine fun s ⟨_, ho, hr, _⟩ x y => ⟨fun i j u v => State.drives_disjoint ho hr, fun i sl w hsl hin hset hphase => ?_, fun hnone => ?_,
    fun hphase => if_neg hphase, fun sl => rfl⟩
  · rw [State.driveCode, if_pos hphase, State.formedCode_of_drive ho hr hsl hin, State.slotCode_of_set hset]
  · rw [State.driveCode]
    split
    · exact State.formedCode_of_no_drive hnone
    · rfl

end Sys2Proof.Machine
end


section
/-! PROOF. Chapter 6, events that end slots: what a frame end and a loss of the supply do to the slots of the admission list,
their records, their tiles and their levels, one account for both (R15 to R17, R90, R91, R97, R103, R106, R110). -/

namespace Sys2Proof.Machine

/-! ### The fate of a slot -/

/-- What an event makes of an active slot: its end, with the outcome and the frames driven, or its next frame index. -/
abbrev Fate := Slot → Option (UpdateOutcome × Nat)

/-- A frame end ends a slot that has driven its last frame, and one that is STOPPING (R103). -/
def frameFate : Fate := fun sl =>
  if sl.index + 1 < sl.length then if sl.phase = .driving then none else some (.aborted, sl.index + 1)
  else some (.done, sl.length)

/-- A loss of the supply aborts every slot (R110). -/
def lossFate : Fate := fun sl => some (.aborted, sl.index)

/-- The slot after the event. -/
def Fate.after (fate : Fate) (sl : Slot) : Option Slot := (fate sl).elim (some { sl with index := sl.index + 1 }) fun _ => none

/-- Slot i meets its fate. -/
def State.meet (fate : Fate) (s : State) (i : Fin 16) : State :=
  (s.frame.slots[i]).elim s fun sl => (fate sl).elim
    { s with frame := s.frame.setSlot i (some { sl with index := sl.index + 1 }) } fun e => s.finishSlot i sl e.1 e.2

theorem State.meet_of_free {fate : Fate} {s : State} {i : Fin 16} (h : s.frame.slots[i] = none) : s.meet fate i = s := by
  rw [State.meet, h]
  rfl

theorem State.meet_of_stays {fate : Fate} {s : State} {i : Fin 16} {sl : Slot} (h : s.frame.slots[i] = some sl)
    (hfate : fate sl = none) :
    s.meet fate i = { s with frame := s.frame.setSlot i (some { sl with index := sl.index + 1 }) } := by
  rw [State.meet, h, Option.elim_some, hfate]
  rfl

theorem State.meet_of_ends {fate : Fate} {s : State} {i : Fin 16} {sl : Slot} (h : s.frame.slots[i] = some sl)
    {o : UpdateOutcome} {n : Nat} (hfate : fate sl = some (o, n)) : s.meet fate i = s.finishSlot i sl o n := by
  rw [State.meet, h, Option.elim_some, hfate]
  rfl

/-- The three things that may become of a slot. -/
theorem State.meet_cases (fate : Fate) (s : State) (i : Fin 16) : (s.frame.slots[i] = none ∧ s.meet fate i = s) ∨
    (∃ sl, s.frame.slots[i] = some sl ∧ fate sl = none ∧
      s.meet fate i = { s with frame := s.frame.setSlot i (some { sl with index := sl.index + 1 }) }) ∨
    ∃ sl o n, s.frame.slots[i] = some sl ∧ fate sl = some (o, n) ∧ s.meet fate i = s.finishSlot i sl o n := by
  cases hsl : s.frame.slots[i] with
  | none => exact .inl ⟨rfl, State.meet_of_free hsl⟩
  | some sl =>
    right
    cases hfate : fate sl with
    | none => exact .inl ⟨sl, rfl, hfate, State.meet_of_stays hsl hfate⟩
    | some e => exact .inr ⟨sl, e.1, e.2, rfl, hfate, State.meet_of_ends hsl hfate⟩

theorem State.advanceSlot_eq_meet (s : State) (i : Fin 16) : s.advanceSlot i = s.meet frameFate i := by
  rcases s.advanceSlot_cases i with ⟨hnone, h⟩ | ⟨sl, hsl, ⟨hlast, h⟩ | ⟨hlt, hphase, h⟩ | ⟨hlt, hphase, h⟩⟩
  · rw [h, State.meet_of_free hnone]
  · rw [h, State.meet_of_ends hsl (if_neg (Nat.not_lt.2 hlast))]
  · rw [h, State.meet_of_ends hsl ((if_pos hlt).trans (if_neg (by rw [hphase]; decide)))]
  · rw [h, State.meet_of_stays hsl ((if_pos hlt).trans (if_pos hphase))]

theorem State.abortSlot_eq_meet (s : State) (i : Fin 16) : s.abortSlot i = s.meet lossFate i := by
  rcases s.abortSlot_cases i with ⟨hnone, h⟩ | ⟨sl, hsl, h⟩
  · rw [h, State.meet_of_free hnone]
  · rw [h, State.meet_of_ends hsl rfl]

/-- The slots of a list meet their fates one after another. -/
def State.meetAll (fate : Fate) (is : List (Fin 16)) (s : State) : State := is.foldl (State.meet fate) s

theorem State.meetAll_cons (fate : Fate) (i : Fin 16) (is : List (Fin 16)) (s : State) :
    s.meetAll fate (i :: is) = (s.meet fate i).meetAll fate is := rfl

theorem State.meetAll_keeps {fate : Fate} {is : List (Fin 16)} (P : State → Prop)
    (hnext : ∀ (s : State) (i : Fin 16) (sl : Slot), s.frame.slots[i] = some sl → P s →
      P { s with frame := s.frame.setSlot i (some { sl with index := sl.index + 1 }) })
    (hend : ∀ (s : State) (i : Fin 16) (sl : Slot) (o : UpdateOutcome) (n : Nat), s.frame.slots[i] = some sl → P s →
      P (s.finishSlot i sl o n)) {s : State} (hs : P s) : P (s.meetAll fate is) := by
  refine foldl_keeps P (State.meet fate) is (fun t i _ ht => ?_) hs
  rcases t.meet_cases fate i with ⟨-, h⟩ | ⟨sl, hsl, -, h⟩ | ⟨sl, o, n, hsl, -, h⟩
  · rw [h]
    exact ht
  · rw [h]
    exact hnext t i sl hsl ht
  · rw [h]
    exact hend t i sl o n hsl ht

/-! ### The slots and the admission list -/

theorem State.meet_slots (fate : Fate) (s : State) (i k : Fin 16) :
    (s.meet fate i).frame.slots[k] = if k = i then (s.frame.slots[i]).bind fate.after else s.frame.slots[k] := by
  rcases s.meet_cases fate i with ⟨hnone, h⟩ | ⟨sl, hsl, hfate, h⟩ | ⟨sl, o, n, hsl, hfate, h⟩
  · rw [h]
    split
    next hk => rw [hk, hnone, Option.bind_none]
    next => rfl
  · have hafter : fate.after sl = some { sl with index := sl.index + 1 } := by rw [Fate.after, hfate]; rfl
    rw [h, hsl, Option.bind_some, hafter]
    exact (FrameEngine.slots_setSlot _ _ _ _).trans (if_congr eq_comm rfl rfl)
  · have hafter : fate.after sl = none := by rw [Fate.after, hfate]; rfl
    rw [h, hsl, Option.bind_some, hafter, State.finishSlot_frame]
    exact (FrameEngine.slots_setSlot _ _ _ _).trans (if_congr eq_comm rfl rfl)

theorem State.meetAll_slots (fate : Fate) {is : List (Fin 16)} (his : is.Nodup) (s : State) (k : Fin 16) :
    (s.meetAll fate is).frame.slots[k] =
      if k ∈ is then (s.frame.slots[k]).bind fate.after else s.frame.slots[k] := by
  induction is generalizing s with
  | nil => rfl
  | cons i is ih =>
    obtain ⟨hi, his⟩ := List.nodup_cons.1 his
    rw [State.meetAll_cons, ih his, State.meet_slots]
    by_cases hk : k = i
    · subst hk
      simp [hi]
    · simp [hk]

/-- Of the frame engine an event that ends slots changes the slots and the admission list, which keeps the slots left active. -/
theorem State.meetAll_frame (fate : Fate) (is : List (Fin 16)) {s : State} (hs : s.frame.listSound) :
    (s.meetAll fate is).frame = { s.frame with
      slots := (s.meetAll fate is).frame.slots,
      admissions := s.frame.admissions.filter fun i => (s.meetAll fate is).frame.slots[i].isSome } := by
  refine State.meetAll_keeps (fun t => t.frame = { s.frame with
    slots := t.frame.slots, admissions := s.frame.admissions.filter fun i => t.frame.slots[i].isSome })
    (fun t i sl hsl ht => ?_) (fun t i sl o n hsl ht => ?_) ?_
  · have hsome : ∀ k : Fin 16, (t.frame.setSlot i (some { sl with index := sl.index + 1 })).slots[k].isSome =
        t.frame.slots[k].isSome := fun k => by
      rw [FrameEngine.slots_setSlot]
      split
      next h => rw [← h, hsl]; rfl
      next => rfl
    have hlist := congrArg FrameEngine.admissions ht
    simp only [hsome]
    conv_lhs => rw [FrameEngine.setSlot, ht]
    rfl
  · have hsome : ∀ k : Fin 16, (t.finishSlot i sl o n).frame.slots[k].isSome = (t.frame.slots[k].isSome && decide (k ≠ i)) :=
      fun k => by
        rw [State.finishSlot_frame]
        refine (congrArg Option.isSome (FrameEngine.slots_setSlot _ _ _ _)).trans ?_
        by_cases h : i = k
        · simp [h]
        · simp [h, Ne.symm h]
    simp only [hsome]
    rw [State.finishSlot_frame]
    conv_lhs => rw [FrameEngine.setSlot, ht]
    simp only [List.filter_filter, Bool.and_comm]
    rfl
  · have hall : s.frame.admissions.filter (fun i => s.frame.slots[i].isSome) = s.frame.admissions :=
      List.filter_eq_self.2 fun i hi => (hs.2 i).1 hi
    rw [hall]

/-! ### What an event that ends slots leaves alone -/

theorem State.meetAll_kept (fate : Fate) (is : List (Fin 16)) (s : State) :
    (s.meetAll fate is).sched = s.sched ∧ (s.meetAll fate is).rail = s.rail ∧ (s.meetAll fate is).temp = s.temp ∧
    (s.meetAll fate is).wave = s.wave ∧ (s.meetAll fate is).pending = s.pending ∧
    (s.meetAll fate is).ghost.policy = s.ghost.policy ∧ (s.meetAll fate is).pixel.image = s.pixel.image ∧
    (s.meetAll fate is).pixel.geometry = s.pixel.geometry := by
  refine State.meetAll_keeps (fun t => t.sched = s.sched ∧ t.rail = s.rail ∧ t.temp = s.temp ∧ t.wave = s.wave ∧
    t.pending = s.pending ∧ t.ghost.policy = s.ghost.policy ∧ t.pixel.image = s.pixel.image ∧
    t.pixel.geometry = s.pixel.geometry) (fun t i sl hsl ht => ht) (fun t i sl o n hsl ht => ?_)
    ⟨rfl, rfl, rfl, rfl, rfl, rfl, rfl, rfl⟩
  rw [State.finishSlot_sched, State.finishSlot_rail, State.finishSlot_temp, State.finishSlot_wave, State.finishSlot_pending,
    State.finishSlot_policy, State.finishSlot_image, State.finishSlot_geometry]
  exact ht

/-! ### The records -/

/-- The completion record of a slot that ends (R106). -/
def Slot.record (i : Fin 16) (sl : Slot) (e : UpdateOutcome × Nat) : CompletionRecord :=
  { tag := sl.tag, slot := some i, outcome := e.1, effective := sl.effective, escalated := sl.escalated,
    recovery := sl.recovery, band := sl.band, frames := e.2, hull := sl.hull }

/-- The record that the fate of slot i makes. -/
def State.recordOf (fate : Fate) (s : State) (i : Fin 16) : Option CompletionRecord :=
  (s.frame.slots[i]).bind fun sl => (fate sl).map (sl.record i)

theorem State.notified_finishSlot {s : State} (hrecords : s.notice.records.length ≤ 16) (i : Fin 16) (sl : Slot)
    (o : UpdateOutcome) (n : Nat) : Notified [sl.record i (o, n)]
      (recordsRaise s.notice.records.length [sl.record i (o, n)]) s (s.finishSlot i sl o n) := by
  have hjoined : ∀ t : State, t.notice = s.notice → t.link = s.link →
      Notified [sl.record i (o, n)] (recordsRaise s.notice.records.length [sl.record i (o, n)]) s
        (t.joinRecord (sl.record i (o, n))) := fun t ht hlink =>
    ((Notified.same hrecords ht hlink).trans (Notified.record (sl.record i (o, n)) (ht ▸ hrecords))).congr fun k => by
      rw [false_or, ht]
  exact hjoined _ rfl rfl

/-- The kinds raised by records that join one after another. -/
theorem recordsRaise_append {n m : Nat} (made more : List CompletionRecord)
    (hm : m = min 16 (n + made.length)) (k : NoticeKind) :
    recordsRaise n (made ++ more) k ↔ recordsRaise n made k ∨ recordsRaise m more k := by
  cases k with
  | done => simp only [recordsRaise, ne_eq, List.append_eq_nil_iff, not_and_or]
  | failed => simp only [recordsRaise, List.mem_append, or_and_right, exists_or]
  | overflow =>
    simp only [recordsRaise, List.length_append]
    omega
  | _ => simp only [recordsRaise, or_self]

theorem State.notified_meet (fate : Fate) {s : State} (hrecords : s.notice.records.length ≤ 16) (i : Fin 16) :
    Notified (s.recordOf fate i).toList (recordsRaise s.notice.records.length (s.recordOf fate i).toList) s
      (s.meet fate i) := by
  have hnone : ∀ k, recordsRaise s.notice.records.length [] k ↔ False := fun k => by
    cases k <;> simp [recordsRaise, hrecords]
  rcases s.meet_cases fate i with ⟨hfree, h⟩ | ⟨sl, hsl, hfate, h⟩ | ⟨sl, o, n, hsl, hfate, h⟩
  · have hrecord : s.recordOf fate i = none := by rw [State.recordOf, hfree]; rfl
    rw [h, hrecord]
    exact (Notified.refl hrecords).congr hnone
  · have hrecord : s.recordOf fate i = none := by rw [State.recordOf, hsl, Option.bind_some, hfate]; rfl
    rw [h, hrecord]
    refine Notified.congr ?_ hnone
    exact Notified.same hrecords rfl rfl
  · have hrecord : s.recordOf fate i = some (sl.record i (o, n)) := by rw [State.recordOf, hsl, Option.bind_some, hfate]; rfl
    rw [h, hrecord]
    exact State.notified_finishSlot hrecords i sl o n

theorem State.notified_meetAll (fate : Fate) {is : List (Fin 16)} (his : is.Nodup) {s : State}
    (hrecords : s.notice.records.length ≤ 16) : Notified (is.filterMap (s.recordOf fate))
      (recordsRaise s.notice.records.length (is.filterMap (s.recordOf fate))) s (s.meetAll fate is) := by
  induction is generalizing s with
  | nil =>
    refine (Notified.refl hrecords).congr fun k => ?_
    cases k <;> simp [recordsRaise, hrecords]
  | cons i is ih =>
    obtain ⟨hi, his⟩ := List.nodup_cons.1 his
    have hrest : is.filterMap ((s.meet fate i).recordOf fate) = is.filterMap (s.recordOf fate) :=
      List.filterMap_congr fun k hk => by
        have hne : k ≠ i := fun h => hi (h ▸ hk)
        rw [State.recordOf, State.meet_slots, if_neg hne, State.recordOf]
    have hcons : (i :: is).filterMap (s.recordOf fate) = (s.recordOf fate i).toList ++ is.filterMap (s.recordOf fate) := by
      rw [List.filterMap_cons]
      cases s.recordOf fate i <;> rfl
    have hone := s.notified_meet fate hrecords i
    have hlength : (s.meet fate i).notice.records.length =
        min 16 (s.notice.records.length + (s.recordOf fate i).toList.length) := by
      rw [hone.records, List.length_drop, List.length_append]
      omega
    rw [State.meetAll_cons, hcons]
    refine (hone.trans (hrest ▸ ih his hone.records_length_le)).congr fun k => ?_
    exact recordsRaise_append _ _ hlength k

end Sys2Proof.Machine
end


section
/-! PROOF. Chapter 6, events that end slots: the levels of their drive sets and the tiles of their hulls, and what a frame
end makes of them (R15 to R17, R90, R91). -/

namespace Sys2Proof.Machine

/-! ### What each place sees of an event that ends slots

A pixel lies in one drive set at most and a tile in one hull at most, so what the event makes of it is what the fate of the
one slot makes of it. -/

theorem State.meetAll_observed {α : Type} {fate : Fate} {P : State → Prop} {touches : Slot → Prop} {after : Slot → α → α}
    {observe : State → α} (hkeep : ∀ s i, P s → P (s.meet fate i))
    (hdisjoint : ∀ (s : State) (i j : Fin 16) (u v : Slot), P s → s.frame.slots[i] = some u → s.frame.slots[j] = some v →
      touches u → touches v → i = j)
    (htouched : ∀ (s : State) (i : Fin 16) (sl : Slot), P s → s.frame.slots[i] = some sl → touches sl →
      observe (s.meet fate i) = after sl (observe s))
    (hother : ∀ (s : State) (i : Fin 16), P s → (∀ sl, s.frame.slots[i] = some sl → ¬ touches sl) →
      observe (s.meet fate i) = observe s) {is : List (Fin 16)} (his : is.Nodup) {s : State} (hs : P s) :
    (∀ i ∈ is, ∀ sl, s.frame.slots[i] = some sl → touches sl → observe (s.meetAll fate is) = after sl (observe s)) ∧
    ((∀ i ∈ is, ∀ sl, s.frame.slots[i] = some sl → ¬ touches sl) → observe (s.meetAll fate is) = observe s) := by
  induction is generalizing s with
  | nil => exact ⟨fun i hi => absurd hi List.not_mem_nil, fun _ => rfl⟩
  | cons i is ih =>
    obtain ⟨hi, his⟩ := List.nodup_cons.1 his
    obtain ⟨hin, hout⟩ := ih his (hkeep s i hs)
    have hslots : ∀ k ∈ is, (s.meet fate i).frame.slots[k] = s.frame.slots[k] := fun k hk =>
      (s.meet_slots fate i k).trans (if_neg (show k ≠ i from fun h => hi (h ▸ hk)))
    rw [State.meetAll_cons]
    refine ⟨fun k hk sl hsl htouch => ?_, fun hnone => ?_⟩
    · rcases List.mem_cons.1 hk with rfl | hk
      · rw [hout fun j hj v hv htouch' => hi ?_, htouched s k sl hs hsl htouch]
        rw [hslots j hj] at hv
        exact hdisjoint s j k v sl hs hv hsl htouch' htouch ▸ hj
      · rw [hin k hk sl ((hslots k hk).trans hsl) htouch, hother s i hs fun v hv htouch' => hi ?_]
        exact hdisjoint s k i sl v hs hsl hv htouch htouch' ▸ hk
    · rw [hout fun j hj v hv => hnone j (List.mem_cons_of_mem _ hj) v (hslots j hj ▸ hv),
        hother s i hs (hnone i List.mem_cons_self)]

/-! ### The levels -/

theorem State.rectsSound.setSlot_index {s : State} (hs : s.rectsSound) {i : Fin 16} {sl : Slot}
    (hsl : s.frame.slots[i] = some sl) (n : Nat) :
    State.rectsSound { s with frame := s.frame.setSlot i (some { sl with index := n }) } := by
  refine hs.of_kept rfl (fun e => hs.entry_kept) fun j v hv => ?_
  have hset := (FrameEngine.slots_setSlot s.frame i j (some { sl with index := n })).symm.trans hv
  split at hset
  · cases hset
    have hkept : s.pixel.kept sl.rect sl.hull := hs.slot_kept hsl
    exact hkept
  · exact hs.slot_kept hset

/-- What the levels and the owners of a state are read with: memories in canonical form, rectangles and hulls true to the
panel, which has the geometry given. -/
def State.drivesSound (g : PixelStore) (s : State) : Prop :=
  s.memoryCanonical ∧ s.rectsSound ∧ s.ownersSound ∧ s.pixel.geometry = g.geometry

theorem State.drivesSound.meet {g : PixelStore} {s : State} (hs : s.drivesSound g) (fate : Fate) (i : Fin 16) :
    (s.meet fate i).drivesSound g := by
  obtain ⟨hm, hr, ho, hg⟩ := hs
  rcases s.meet_cases fate i with ⟨-, h⟩ | ⟨sl, hsl, -, h⟩ | ⟨sl, o, n, hsl, -, h⟩
  · rw [h]
    exact ⟨hm, hr, ho, hg⟩
  · rw [h]
    exact ⟨hm, hr.setSlot_index hsl _, ho.of_same rfl rfl (s.frame.hull_setSlot_index hsl _), hg⟩
  · rw [h]
    exact ⟨hm.finishSlot i sl o n, hr.finishSlot i sl o n, ho.finishSlot hsl o n, (s.finishSlot_geometry i sl o n).trans hg⟩

/-- The believed and the next level of a pixel. -/
def State.levels (x y : Nat) (s : State) : Level × Level := (s.pixel.believed.level x y, s.pixel.next.level x y)

/-- The believed and the next level of a pixel that a slot drives, once the slot has met its fate (R16, R17). -/
def Fate.levels (fate : Fate) (sl : Slot) (l : Level × Level) : Level × Level :=
  (fate sl).elim l fun e => if e.1 = .done then (l.2, l.2) else (l.1, l.1)

theorem State.levels_finishSlot {s : State} {i : Fin 16} {sl : Slot} (o : UpdateOutcome) (n : Nat) (hm : s.memoryCanonical)
    (hr : s.rectsSound) (hsl : s.frame.slots[i] = some sl) (x y : Nat) (hx : x < 2048) :
    (s.finishSlot i sl o n).levels x y = if (s.pixel.driveSet sl).has x y = true then
      if o = .done then ((s.levels x y).2, (s.levels x y).2) else ((s.levels x y).1, (s.levels x y).1)
      else s.levels x y := by
  obtain ⟨hbelieved, hnext⟩ := State.level_finishSlot o n hm hr hsl x y hx
  rw [State.levels, hbelieved, hnext, State.levels]
  by_cases ho : o = .done <;> by_cases hin : (s.pixel.driveSet sl).has x y = true <;> simp [ho, hin]

theorem State.meetAll_levels (fate : Fate) {is : List (Fin 16)} (his : is.Nodup) {s : State} (hm : s.memoryCanonical)
    (hr : s.rectsSound) (ho : s.ownersSound) (x y : Nat) (hx : x < 2048) :
    (∀ i ∈ is, ∀ sl, s.frame.slots[i] = some sl → (s.pixel.driveSet sl).has x y = true →
      (s.meetAll fate is).levels x y = fate.levels sl (s.levels x y)) ∧
    ((∀ i ∈ is, ∀ sl, s.frame.slots[i] = some sl → ¬ (s.pixel.driveSet sl).has x y = true) →
      (s.meetAll fate is).levels x y = s.levels x y) := by
  refine State.meetAll_observed (P := State.drivesSound s.pixel) (touches := fun sl => (s.pixel.driveSet sl).has x y = true)
    (observe := State.levels x y) (fun t i ht => ht.meet fate i) ?_ ?_ ?_ his ⟨hm, hr, ho, rfl⟩
  · rintro t i j u v ⟨-, htr, hto, htg⟩ hu hv hux hvx
    rw [← PixelStore.driveSet_congr htg] at hux hvx
    exact State.drives_disjoint hto htr hu hv hux hvx
  · rintro t i sl ⟨htm, htr, -, htg⟩ hsl hin
    rw [← PixelStore.driveSet_congr htg] at hin
    cases hfate : fate sl with
    | none =>
      rw [State.meet_of_stays hsl hfate, Fate.levels, hfate]
      rfl
    | some e =>
      rw [State.meet_of_ends hsl hfate, State.levels_finishSlot _ _ htm htr hsl x y hx, if_pos hin, Fate.levels, hfate]
      rfl
  · rintro t i ⟨htm, htr, -, htg⟩ hout
    rcases t.meet_cases fate i with ⟨-, h⟩ | ⟨sl, hsl, -, h⟩ | ⟨sl, o, n, hsl, -, h⟩
    · rw [h]
    · rw [h]
      rfl
    · rw [h, State.levels_finishSlot _ _ htm htr hsl x y hx, PixelStore.driveSet_congr htg, if_neg (hout sl hsl)]

/-! ### The tiles -/

/-- The record of a tile of a slot's hull, once the slot has met its fate (R90, R91). -/
def Fate.tile (fate : Fate) (sl : Slot) (r : TileRecord) : TileRecord :=
  (fate sl).elim r fun e => { r with
    owner := none, rest := 0,
    condition := if e.1 = .done then (if sl.effective = .clear then .known else r.condition) else .unknown }

theorem State.tile_finishSlot {s : State} (hs : s.ownersSound) (i : Fin 16) (sl : Slot) (o : UpdateOutcome) (n x y : Nat)
    (hx : x < s.pixel.tileCols) (hy : y < s.pixel.tileRows) : (s.finishSlot i sl o n).tile x y =
      if sl.hull.has x y = true then { s.tile x y with
        owner := none, rest := 0,
        condition := if o = .done then (if sl.effective = .clear then .known else (s.tile x y).condition) else .unknown }
      else s.tile x y := by
  obtain ⟨-, -, -, hcols, -⟩ := (PixelStore.geometry_eq_iff _ _).1 (s.finishSlot_geometry i sl o n)
  have htile := State.tile_congr (congrArg GhostPlanner.tiles (s.finishSlot_ghost i sl o n)) hcols x y
  rw [htile, State.tile_releaseTiles _ _ _ _ _ hs.1 hx hy]
  by_cases ho : o = .done <;> by_cases hc : sl.effective = .clear <;> simp [ho, hc]

theorem State.meetAll_tile (fate : Fate) {is : List (Fin 16)} (his : is.Nodup) {s : State} (ho : s.ownersSound) (x y : Nat)
    (hx : x < s.pixel.tileCols) (hy : y < s.pixel.tileRows) :
    (∀ i ∈ is, ∀ sl, s.frame.slots[i] = some sl → sl.hull.has x y = true →
      (s.meetAll fate is).tile x y = fate.tile sl (s.tile x y)) ∧
    ((∀ i ∈ is, ∀ sl, s.frame.slots[i] = some sl → ¬ sl.hull.has x y = true) →
      (s.meetAll fate is).tile x y = s.tile x y) := by
  refine State.meetAll_observed (P := fun t => t.ownersSound ∧ t.pixel.geometry = s.pixel.geometry)
    (touches := fun sl => sl.hull.has x y = true) (observe := fun t => t.tile x y) ?_ ?_ ?_ ?_ his ⟨ho, rfl⟩
  · rintro t i ⟨hto, htg⟩
    rcases t.meet_cases fate i with ⟨-, h⟩ | ⟨sl, hsl, -, h⟩ | ⟨sl, o, n, hsl, -, h⟩
    · rw [h]
      exact ⟨hto, htg⟩
    · rw [h]
      exact ⟨hto.of_same rfl rfl (t.frame.hull_setSlot_index hsl _), htg⟩
    · rw [h]
      exact ⟨hto.finishSlot hsl o n, (t.finishSlot_geometry i sl o n).trans htg⟩
  all_goals
    rintro t i
  · rintro j u v ⟨hto, htg⟩ hu hv hux hvx
    obtain ⟨-, -, -, hcols, hrows⟩ := (PixelStore.geometry_eq_iff _ _).1 htg
    have howner := fun (k : Fin 16) sl hsl hin => (hto.2 x y k (hcols ▸ hx) (hrows ▸ hy)).2 ⟨sl, hsl, hin⟩
    exact Option.some.inj ((howner i u hu hux).symm.trans (howner j v hv hvx))
  · rintro sl ⟨hto, htg⟩ hsl hin
    obtain ⟨-, -, -, hcols, hrows⟩ := (PixelStore.geometry_eq_iff _ _).1 htg
    cases hfate : fate sl with
    | none =>
      rw [State.meet_of_stays hsl hfate, Fate.tile, hfate]
      rfl
    | some e =>
      rw [State.meet_of_ends hsl hfate, State.tile_finishSlot hto _ _ _ _ _ _ (hcols ▸ hx) (hrows ▸ hy), if_pos hin, Fate.tile,
        hfate]
      rfl
  · rintro ⟨hto, htg⟩ hout
    obtain ⟨-, -, -, hcols, hrows⟩ := (PixelStore.geometry_eq_iff _ _).1 htg
    rcases t.meet_cases fate i with ⟨-, h⟩ | ⟨sl, hsl, -, h⟩ | ⟨sl, o, n, hsl, -, h⟩
    · rw [h]
    · rw [h]
      rfl
    · rw [h, State.tile_finishSlot hto _ _ _ _ _ _ (hcols ▸ hx) (hrows ▸ hy), if_neg (hout sl hsl)]

/-! ### The frame end -/

/-- The state in which the slots of a driven frame meet their fates: no frame is driven any longer (R103). -/
def State.undriven (s : State) : State := { s with frame.phase := .between, frame.driveActive := false }

theorem State.frameAdvanced_eq (s : State) : s.frameAdvanced = s.undriven.meetAll frameFate s.frame.admissions := by
  rw [State.frameAdvanced, State.meetAll, funext fun t => funext fun i => State.advanceSlot_eq_meet t i]
  rfl

/-- The state after a frame end but for the waits it ends. -/
def State.frameEnded (s : State) : State :=
  (s.frameAdvanced.installHeld (freedSlots s s.frameAdvanced)).idleNotice (freedSlots s s.frameAdvanced)

theorem exec_frameEnd {s : State} (hrail : s.rail.state = .on) (hphase : s.frame.phase = .driven) :
    exec .frameEnd s = .next (s.frameEnded.endWaits ((freedSlots s s.frameAdvanced).map Slot.tag)) := if_pos ⟨hrail, hphase⟩

theorem mem_admissions {s : State} (hs : s.frame.listSound) {i : Fin 16} {sl : Slot} (hsl : s.frame.slots[i] = some sl) :
    i ∈ s.frame.admissions := (hs.2 i).2 (Option.isSome_iff_exists.2 ⟨sl, hsl⟩)

theorem frameFate_levels (sl : Slot) (l : Level × Level) : frameFate.levels sl l =
    (if sl.index + 1 < sl.length then l.1 else l.2,
      if sl.index + 1 < sl.length ∧ sl.phase = .stopping then l.1 else l.2) := by
  rw [Fate.levels, frameFate]
  by_cases hlt : sl.index + 1 < sl.length
  · cases sl.phase <;> simp [hlt]
  · simp [hlt]

theorem frameFate_tile (sl : Slot) (r : TileRecord) : frameFate.tile sl r =
    if sl.index + 1 < sl.length then
      if sl.phase = .driving then r else { r with owner := none, rest := 0, condition := .unknown }
    else { r with owner := none, rest := 0, condition := if sl.effective = .clear then .known else r.condition } := by
  rw [Fate.tile, frameFate]
  by_cases hlt : sl.index + 1 < sl.length
  · by_cases hphase : sl.phase = .driving <;> simp [hlt, hphase]
  · simp [hlt]

theorem State.endWaits_tile (s : State) (ts : List Tag) (x y : Nat) : (s.endWaits ts).tile x y = s.tile x y :=
  State.tile_congr (by rw [State.endWaits_ghost]) (by rw [State.endWaits_pixel]) x y

theorem State.frameEnded_pixel (s : State) : s.frameEnded.pixel = s.frameAdvanced.pixel := by
  rw [State.frameEnded, State.idleNotice_pixel, State.installHeld_pixel]

theorem State.frameEnded_ghost (s : State) : s.frameEnded.ghost = s.frameAdvanced.ghost := by
  rw [State.frameEnded, State.idleNotice_ghost, State.installHeld_ghost]

/-- Settles O51: the levels and the tiles as the fate of the one slot that holds them makes them. -/
theorem frameEndCommits : Obligations.FrameEndCommits := by
  refine ⟨fun s t hrail hphase hledger hm ht x y hx => ?_, fun s t hrail hphase hledger ht x y hx hy => ?_⟩
  all_goals
    cases (exec_frameEnd hrail hphase).symm.trans ht
    obtain ⟨hlist, ho, hr, -⟩ := hledger
  · obtain ⟨hin, hout⟩ := State.meetAll_levels frameFate hlist.1 (s := s.undriven) hm hr ho x y hx
    rw [← State.frameAdvanced_eq] at hin hout
    rw [State.endWaits_pixel, State.frameEnded_pixel]
    refine ⟨fun i sl hsl hdrives => ?_, fun hnone => ?_⟩
    · have hlevels := (hin i (mem_admissions hlist hsl) sl hsl hdrives).trans (frameFate_levels sl _)
      exact ⟨congrArg Prod.fst hlevels, congrArg Prod.snd hlevels⟩
    · have hlevels := hout fun i _ sl hsl => by
        rw [Bool.not_eq_true]
        exact hnone i sl hsl
      exact ⟨congrArg Prod.fst hlevels, congrArg Prod.snd hlevels⟩
  · obtain ⟨hin, hout⟩ := State.meetAll_tile frameFate hlist.1 (s := s.undriven) ho x y hx hy
    rw [← State.frameAdvanced_eq] at hin hout
    have htile : (s.frameEnded.endWaits ((freedSlots s s.frameAdvanced).map Slot.tag)).tile x y =
        s.frameAdvanced.tile x y := (State.endWaits_tile _ _ x y).trans
      (State.tile_congr (by rw [State.frameEnded_ghost]) (by rw [State.frameEnded_pixel]) x y)
    rw [htile]
    refine ⟨fun hfree => hout fun i _ sl hsl hhull => ?_, fun k sl hown hsl => ?_⟩
    · cases hfree.symm.trans ((ho.2 x y i hx hy).2 ⟨sl, hsl, hhull⟩)
    · obtain ⟨v, hv, hhull⟩ := (ho.2 x y k hx hy).1 hown
      cases hsl.symm.trans hv
      exact (hin k (mem_admissions hlist hsl) sl hsl hhull).trans (frameFate_tile sl _)

end Sys2Proof.Machine
end


section
/-! PROOF. Chapter 6, events that end slots: the slots freed, the held commit that waited for them (R35, R111), and the whole
of a frame end (R103 to R107). -/

namespace Sys2Proof.Machine

/-! ### The slots freed -/

/-- The slot as it was, where the event ends it. -/
def Fate.freed (fate : Fate) (sl : Slot) : Option Slot := (fate sl).map fun _ => sl

theorem freedSlots_meetAll {s t : State} {fate : Fate}
    (ht : ∀ i : Fin 16, t.frame.slots[i] = (s.frame.slots[i]).bind fate.after) :
    freedSlots s t = s.frame.admissions.filterMap fun i => (s.frame.slots[i]).bind fate.freed := by
  refine List.filterMap_congr fun i _ => ?_
  rw [ht i]
  cases s.frame.slots[i] with
  | none => rfl
  | some sl =>
    rw [Option.bind_some, Option.bind_some, Fate.after, Fate.freed]
    cases fate sl <;> rfl

/-- Every slot of the part meets its fate, since the admission list holds every active one. -/
theorem State.meetAll_slots_of_listSound (fate : Fate) {s : State} (hs : s.frame.listSound) (i : Fin 16) :
    (s.meetAll fate s.frame.admissions).frame.slots[i] = (s.frame.slots[i]).bind fate.after := by
  rw [State.meetAll_slots fate hs.1]
  split
  · rfl
  next hout =>
    have hfree : s.frame.slots[i] = none := (FrameEngine.not_isActive_iff _ _).1 fun h => hout ((hs.2 i).2 h)
    rw [hfree]
    rfl

theorem mem_freed {s : State} {fate : Fate} (hs : s.frame.listSound) (sl : Slot) :
    sl ∈ (s.frame.admissions.filterMap fun i => (s.frame.slots[i]).bind fate.freed) ↔
      ∃ i : Fin 16, s.frame.slots[i] = some sl ∧ fate sl ≠ none := by
  rw [List.mem_filterMap]
  constructor
  · rintro ⟨i, -, hfreed⟩
    obtain ⟨v, hv, hfreed⟩ := Option.bind_eq_some_iff.1 hfreed
    obtain ⟨e, he, rfl⟩ := Option.map_eq_some_iff.1 hfreed
    exact ⟨i, hv, by rw [he]; exact Option.some_ne_none e⟩
  · rintro ⟨i, hsl, hends⟩
    obtain ⟨e, he⟩ := Option.ne_none_iff_exists'.1 hends
    exact ⟨i, mem_admissions hs hsl, by rw [hsl, Option.bind_some, Fate.freed, he]; rfl⟩

/-- The tags of the records are those of the slots freed. -/
theorem tags_recordOf (fate : Fate) (s : State) (is : List (Fin 16)) :
    (is.filterMap (s.recordOf fate)).map CompletionRecord.tag =
      (is.filterMap fun i => (s.frame.slots[i]).bind fate.freed).map Slot.tag := by
  rw [List.map_filterMap, List.map_filterMap]
  refine List.filterMap_congr fun i _ => ?_
  rw [State.recordOf]
  cases s.frame.slots[i] with
  | none => rfl
  | some sl =>
    rw [Option.bind_some, Option.bind_some, Fate.freed]
    cases fate sl <;> rfl

/-! ### The held commit -/

/-- A slot of the list used the set of a held commit, and no active slot does. -/
def State.releases (freed : List Slot) (s : State) (h : HeldCommit) : Prop :=
  (∃ sl ∈ freed, sl.effective = h.mode ∧ sl.band = h.band) ∧
  ¬ ∃ (i : Fin 16) (sl : Slot), s.frame.slots[i] = some sl ∧ sl.effective = h.mode ∧ sl.band = h.band

/-- The state with the set of a held commit installed (R35). -/
def State.heldInstalled (s : State) (h : HeldCommit) : State :=
  { s with wave :=
    { s.wave.putSet h.mode h.band (some (s.wave.imageSet h.charges h.crc)) with held := none } }

theorem State.installHeld_of_none {s : State} (freed : List Slot) (hheld : s.wave.held = none) : s.installHeld freed = s := by
  simp only [State.installHeld, hheld]

theorem State.installHeld_of_some {s : State} (freed : List Slot) {h : HeldCommit} (hheld : s.wave.held = some h) :
    (s.releases freed h → s.installHeld freed = (s.heldInstalled h).raise .commit) ∧
    (¬ s.releases freed h → s.installHeld freed = s) := by
  have hiff : (freed.any (fun sl => sl.effective = h.mode && sl.band = h.band) ∧ s.frame.users h.mode h.band = 0) ↔
      s.releases freed h := by
    rw [State.releases, ← FrameEngine.users_ne_zero, ne_eq, not_not]
    simp only [List.any_eq_true, Bool.and_eq_true, decide_eq_true_eq]
  simp only [State.installHeld, hheld]
  exact ⟨fun hr => if_pos (hiff.2 hr), fun hr => if_neg (mt hiff.1 hr)⟩

theorem State.notified_installHeld (freed : List Slot) {s : State} (hrecords : s.notice.records.length ≤ 16) :
    Notified [] (fun k => k = .commit ∧ ∃ h, s.wave.held = some h ∧ s.releases freed h) s (s.installHeld freed) := by
  by_cases hreleased : ∃ h, s.wave.held = some h ∧ s.releases freed h
  · obtain ⟨h, hheld, hr⟩ := hreleased
    rw [(State.installHeld_of_some freed hheld).1 hr]
    have hinstalled : Notified [] (fun _ => False) s (s.heldInstalled h) := .same hrecords rfl rfl
    exact (hinstalled.trans (.raise .commit hrecords)).congr fun k => by
      rw [false_or]
      exact and_iff_left ⟨h, hheld, hr⟩
  · have hsame : s.installHeld freed = s := by
      cases hheld : s.wave.held with
      | none => exact State.installHeld_of_none freed hheld
      | some h => exact (State.installHeld_of_some freed hheld).2 fun hr => hreleased ⟨h, hheld, hr⟩
    rw [hsame]
    exact (Notified.refl hrecords).congr fun k => by simp [hreleased]

/-- What the release of a held commit does to the store: the set staged joins it, and the record is cleared. -/
theorem WaveformStore.heldInstalled_iff {w : WaveformStore} {h : HeldCommit} (hs : w.heldSound h) : ∃ v : WaveformSet,
    v.isStaged w ∧ v.charges = h.charges ∧ v.crc = h.crc ∧ ∀ u : WaveformStore,
      u = { w.putSet h.mode h.band (some (w.imageSet h.charges h.crc)) with held := none } →
      u.held = none ∧ u.staging = w.staging ∧
      ∀ m b, u.set? m b = if m = h.mode ∧ b = h.band then some v else w.set? m b := by
  refine ⟨w.imageSet h.charges h.crc, WaveformStore.imageSet_isStaged hs.passes _ _, rfl, rfl, ?_⟩
  rintro u rfl
  exact ⟨rfl, rfl, fun m b => WaveformStore.set?_putSet w h.mode m h.band b _⟩

/-- The store after an event that freed slots, as far as the held commit goes. -/
theorem State.installHeld_wave (freed : List Slot) (s : State) :
    (s.wave.held = none → (s.installHeld freed).wave = s.wave) ∧
    ∀ h, s.wave.held = some h → (¬ s.releases freed h → (s.installHeld freed).wave = s.wave) ∧
      (s.releases freed h → s.wave.heldSound h → ∃ w : WaveformSet,
        w.isStaged s.wave ∧ w.charges = h.charges ∧ w.crc = h.crc ∧ (s.installHeld freed).wave.held = none ∧
        (s.installHeld freed).wave.staging = s.wave.staging ∧
        ∀ m b, (s.installHeld freed).wave.set? m b = if m = h.mode ∧ b = h.band then some w else s.wave.set? m b) := by
  refine ⟨fun hheld => by rw [State.installHeld_of_none freed hheld], fun h hheld => ⟨fun hr => ?_, fun hr hsound => ?_⟩⟩
  · rw [(State.installHeld_of_some freed hheld).2 hr]
  · obtain ⟨w, hstaged, hcharges, hcrc, hstore⟩ := WaveformStore.heldInstalled_iff hsound
    exact ⟨w, hstaged, hcharges, hcrc, hstore _ (by rw [(State.installHeld_of_some freed hheld).1 hr]; rfl)⟩

/-! ### A frame end -/

/-- A slot that takes the next frame index at a frame end. -/
def Slot.stays (sl : Slot) : Prop := sl.index + 1 < sl.length ∧ sl.phase = .driving

theorem frameFate_eq_none_iff (sl : Slot) : frameFate sl = none ↔ sl.stays := by
  rw [frameFate, Slot.stays]
  by_cases hlt : sl.index + 1 < sl.length <;> by_cases hphase : sl.phase = .driving <;> simp [hlt, hphase]

theorem frameFate_after (sl : Slot) : frameFate.after sl =
    if sl.index + 1 < sl.length ∧ sl.phase = .driving then some { sl with index := sl.index + 1 } else none := by
  rw [Fate.after, frameFate]
  by_cases hlt : sl.index + 1 < sl.length <;> by_cases hphase : sl.phase = .driving <;> simp [hlt, hphase]

theorem State.frameAdvanced_slots {s : State} (hs : s.frame.listSound) (i : Fin 16) :
    s.frameAdvanced.frame.slots[i] = (s.frame.slots[i]).bind frameFate.after := by
  rw [State.frameAdvanced_eq]
  exact State.meetAll_slots_of_listSound frameFate (s := s.undriven) hs i

@[simp] theorem State.frameAdvanced_wave (s : State) : s.frameAdvanced.wave = s.wave := by simp [State.frameAdvanced]

@[simp] theorem State.frameAdvanced_sched (s : State) : s.frameAdvanced.sched = s.sched := by simp [State.frameAdvanced]

theorem State.frameEnded_frame (s : State) : s.frameEnded.frame = s.frameAdvanced.frame := by
  rw [State.frameEnded, State.idleNotice_frame, State.installHeld_frame]

/-- What a frame end leaves as it was, and the slots and the admission list it leaves (R103). -/
theorem State.frameEnded_state {s : State} (hs : s.frame.listSound) :
    s.frameEnded.frame = { s.frame with
      phase := .between, driveActive := false, slots := s.frameEnded.frame.slots,
      admissions := s.frame.admissions.filter fun i => s.frameEnded.frame.slots[i].isSome } ∧
    s.frameEnded.sched = s.sched ∧ s.frameEnded.rail = s.rail ∧ s.frameEnded.temp = s.temp ∧
    s.frameEnded.pixel.image = s.pixel.image ∧ s.frameEnded.ghost.policy = s.ghost.policy ∧
    s.frameEnded.wave.staging = s.wave.staging ∧
    ∀ i : Fin 16, s.frameEnded.frame.slots[i] = (s.frame.slots[i]).bind frameFate.after := by
  obtain ⟨hsched, hrail, htemp, hwave, -, hpolicy, himage, -⟩ :=
    State.meetAll_kept frameFate s.frame.admissions s.undriven
  rw [← State.frameAdvanced_eq] at hsched hrail htemp hwave hpolicy himage
  have hframe := State.meetAll_frame frameFate s.frame.admissions (s := s.undriven) hs
  rw [← State.frameAdvanced_eq] at hframe
  rw [State.frameEnded_frame, State.frameEnded_ghost, State.frameEnded_pixel, State.frameEnded, State.idleNotice_sched,
    State.idleNotice_rail, State.idleNotice_temp, State.idleNotice_wave, State.installHeld_sched, State.installHeld_rail,
    State.installHeld_temp, State.installHeld_staging, hwave]
  exact ⟨hframe, hsched, hrail, htemp, himage, hpolicy, rfl, State.frameAdvanced_slots hs⟩

/-- The record of a slot that a frame end ends. -/
theorem frameFate_record (i : Fin 16) (sl : Slot) : (frameFate sl).map (sl.record i) =
    if sl.index + 1 < sl.length ∧ sl.phase = .driving then none
    else some { tag := sl.tag, slot := some i, outcome := if sl.index + 1 < sl.length then .aborted else .done,
                effective := sl.effective, escalated := sl.escalated, recovery := sl.recovery, band := sl.band,
                frames := if sl.index + 1 < sl.length then sl.index + 1 else sl.length, hull := sl.hull } := by
  rw [frameFate]
  by_cases hlt : sl.index + 1 < sl.length <;> by_cases hphase : sl.phase = .driving <;> simp [hlt, hphase, Slot.record]

theorem State.recordOf_frameFate (s : State) : s.recordOf frameFate = fun i => (s.frame.slots[i]).bind fun sl =>
    if sl.index + 1 < sl.length ∧ sl.phase = .driving then none
    else some { tag := sl.tag, slot := some i, outcome := if sl.index + 1 < sl.length then .aborted else .done,
                effective := sl.effective, escalated := sl.escalated, recovery := sl.recovery, band := sl.band,
                frames := if sl.index + 1 < sl.length then sl.index + 1 else sl.length, hull := sl.hull } := by
  funext i
  rw [State.recordOf]
  exact congrArg _ (funext fun sl => frameFate_record i sl)

/-- No slot is left active where none takes the next frame index. -/
theorem bind_after_eq_none_iff {s t : State} (ht : ∀ i : Fin 16, t.frame.slots[i] = (s.frame.slots[i]).bind frameFate.after) :
    (∀ i : Fin 16, t.frame.slots[i] = none) ↔
      ∀ (i : Fin 16) (sl : Slot), s.frame.slots[i] = some sl → ¬ (sl.index + 1 < sl.length ∧ sl.phase = .driving) := by
  refine forall_congr' fun i => ?_
  rw [ht i]
  cases s.frame.slots[i] with
  | none => simp
  | some sl =>
    rw [Option.bind_some, frameFate_after]
    simp

/-- The held commit is released where a slot freed used its set and none that stays does. -/
theorem frameEnd_releases_iff {s t : State} (hs : s.frame.listSound)
    (ht : ∀ i : Fin 16, t.frame.slots[i] = (s.frame.slots[i]).bind frameFate.after) (h : HeldCommit) :
    t.releases (freedSlots s t) h ↔
      (∃ (i : Fin 16) (sl : Slot), s.frame.slots[i] = some sl ∧ ¬ (sl.index + 1 < sl.length ∧ sl.phase = .driving) ∧
        sl.effective = h.mode ∧ sl.band = h.band) ∧
      ¬ ∃ (i : Fin 16) (sl : Slot), s.frame.slots[i] = some sl ∧ (sl.index + 1 < sl.length ∧ sl.phase = .driving) ∧
        sl.effective = h.mode ∧ sl.band = h.band := by
  have hused : (∃ (i : Fin 16) (v : Slot), t.frame.slots[i] = some v ∧ v.effective = h.mode ∧ v.band = h.band) ↔
      ∃ (i : Fin 16) (sl : Slot), s.frame.slots[i] = some sl ∧ (sl.index + 1 < sl.length ∧ sl.phase = .driving) ∧
        sl.effective = h.mode ∧ sl.band = h.band := by
    refine exists_congr fun i => ?_
    rw [ht i]
    constructor
    · rintro ⟨v, hv, hmode, hband⟩
      obtain ⟨sl, hsl, hafter⟩ := Option.bind_eq_some_iff.1 hv
      rw [frameFate_after] at hafter
      split at hafter
      next hstays =>
        cases hafter
        exact ⟨sl, hsl, hstays, hmode, hband⟩
      next => cases hafter
    · rintro ⟨sl, hsl, hstays, hmode, hband⟩
      exact ⟨{ sl with index := sl.index + 1 }, by rw [hsl, Option.bind_some, frameFate_after, if_pos hstays], hmode, hband⟩
  rw [State.releases, hused, freedSlots_meetAll ht]
  refine and_congr_left' ⟨?_, ?_⟩
  · rintro ⟨sl, hfreed, huses⟩
    obtain ⟨i, hsl, hends⟩ := (mem_freed hs sl).1 hfreed
    exact ⟨i, sl, hsl, mt (frameFate_eq_none_iff sl).2 hends, huses⟩
  · rintro ⟨i, sl, hsl, hends, huses⟩
    exact ⟨sl, (mem_freed hs sl).2 ⟨i, hsl, mt (frameFate_eq_none_iff sl).1 hends⟩, huses⟩

/-- The notices of a frame end: its records, and the kinds they, the held commit and the idle part raise. -/
theorem State.notified_frameEnded {s : State} (hs : s.frame.listSound) (hrecords : s.notice.records.length ≤ 16) :
    Notified (s.frame.admissions.filterMap (s.recordOf frameFate))
      (fun k => (recordsRaise s.notice.records.length (s.frame.admissions.filterMap (s.recordOf frameFate)) k ∨
        k = .commit ∧ ∃ h, s.wave.held = some h ∧ s.frameAdvanced.releases (freedSlots s s.frameAdvanced) h) ∨
        (freedSlots s s.frameAdvanced ≠ [] ∧
          (s.frameAdvanced.installHeld (freedSlots s s.frameAdvanced)).quiet = true) ∧ k = .idle)
      s s.frameEnded := by
  have hundriven : Notified [] (fun _ => False) s s.undriven := .same hrecords rfl rfl
  have hadvanced := State.notified_meetAll frameFate hs.1 (s := s.undriven) hrecords
  rw [← State.frameAdvanced_eq] at hadvanced
  have hinstalled := State.notified_installHeld (freedSlots s s.frameAdvanced) hadvanced.records_length_le
  rw [State.frameAdvanced_wave] at hinstalled
  have hall := (((hundriven.trans hadvanced).trans hinstalled).raiseIf
    (freedSlots s s.frameAdvanced ≠ [] ∧ (s.frameAdvanced.installHeld (freedSlots s s.frameAdvanced)).quiet = true) .idle)
  rw [List.nil_append, List.append_nil] at hall
  exact hall.congr fun k => by
    rw [false_or]
    rfl

/-- Settles O50: the slots by their fates, the records in the order of the admission list, and the kinds and the held commit
after them. -/
theorem slotsAdvanced : Obligations.SlotsAdvanced := by
  refine ⟨fun s hrail hphase hlist => ⟨_, exec_frameEnd hrail hphase, ?_⟩, fun s hrail hphase hlist hrecords => ?_⟩
  · obtain ⟨hframe, hsched, hrail', htemp, himage, hpolicy, hstaging, hslots⟩ := State.frameEnded_state hlist
    rw [State.endWaits_frame, State.endWaits_sched, State.endWaits_rail, State.endWaits_temp, State.endWaits_pixel,
      State.endWaits_ghost, State.endWaits_wave]
    refine ⟨hframe, hsched, hrail', htemp, himage, hpolicy, hstaging, fun i => (hslots i).trans ?_⟩
    cases s.frame.slots[i] with
    | none => rfl
    | some sl => exact frameFate_after sl
  · intro stays uses releases made all
    have hslots := State.frameAdvanced_slots hlist
    have hreleases : ∀ h, s.frameAdvanced.releases (freedSlots s s.frameAdvanced) h ↔ releases h :=
      frameEnd_releases_iff hlist hslots
    have hmade : s.frame.admissions.filterMap (s.recordOf frameFate) = made := by rw [State.recordOf_frameFate]
    have hnotified := State.notified_frameEnded hlist hrecords
    have hfreed : (freedSlots s s.frameAdvanced).map Slot.tag = made.map CompletionRecord.tag := by
      rw [freedSlots_meetAll hslots, ← hmade, tags_recordOf]
    have hfreedne : freedSlots s s.frameAdvanced ≠ [] ↔ made ≠ [] := by
      rw [ne_eq, ← List.map_eq_nil_iff (f := Slot.tag), hfreed, List.map_eq_nil_iff]
    have hquiet : (s.frameAdvanced.installHeld (freedSlots s s.frameAdvanced)).quiet = true ↔
        (∀ (i : Fin 16) (sl : Slot), s.frame.slots[i] = some sl → ¬ stays sl) ∧ s.sched.queue = [] := by
      rw [State.quiet_iff, State.installHeld_frame, State.installHeld_sched, State.frameAdvanced_sched,
        bind_after_eq_none_iff hslots]
    have hwave := State.installHeld_wave (freedSlots s s.frameAdvanced) s.frameAdvanced
    have hended : s.frameEnded.wave = (s.frameAdvanced.installHeld (freedSlots s s.frameAdvanced)).wave :=
      State.idleNotice_wave _ _
    rw [← hended, State.frameAdvanced_wave] at hwave
    rw [hmade] at hnotified
    refine ⟨s.frameEnded, by rw [exec_frameEnd hrail hphase, hfreed], hnotified.notice, fun k => ?_, hnotified.link,
      hnotified.pulse, hwave.1, fun h hheld => ?_⟩
    · rw [hnotified.kinds]
      refine or_congr_right ?_
      rw [hfreedne, hquiet]
      simp only [hreleases]
      cases k <;> simp [recordsRaise, all]
    · obtain ⟨hstay, hinstalled⟩ := hwave.2 h hheld
      exact ⟨fun hr => hstay (mt (hreleases h).1 hr), fun hr => hinstalled ((hreleases h).2 hr)⟩

end Sys2Proof.Machine
end


section
/-! PROOF. Chapters 6 and 7, the loss of PWR_GOOD (R110, R121, R122). -/

namespace Sys2Proof.Machine

/-! ### The slots aborted -/

/-- The state in which the slots meet the loss of the supply. -/
def State.faulted (s : State) : State := { s with rail.state := .faulted .loss }

theorem State.aborted_eq (s : State) : s.aborted =
    { s.faulted.meetAll lossFate s.frame.admissions with frame.phase := .stopped, frame.driveActive := false } := by
  rw [State.aborted, State.meetAll, funext fun t => funext fun i => State.abortSlot_eq_meet t i]
  rfl

theorem lossFate_after (sl : Slot) : lossFate.after sl = none := rfl

theorem lossFate_levels (sl : Slot) (l : Level × Level) : lossFate.levels sl l = (l.1, l.1) := rfl

theorem lossFate_tile (sl : Slot) (r : TileRecord) :
    lossFate.tile sl r = { r with owner := none, condition := .unknown, rest := 0 } := rfl

/-- The active slots with their numbers, in the order of the admission list. -/
def State.inAdmissionOrder (s : State) : List (Fin 16 × Slot) :=
  s.frame.admissions.filterMap fun i => s.frame.slots[i].map fun sl => (i, sl)

theorem State.freedSlots_aborted {s : State} (hs : s.frame.listSound) :
    freedSlots s s.aborted = s.inAdmissionOrder.map Prod.snd := by
  have hslots : ∀ i : Fin 16, s.aborted.frame.slots[i] = (s.frame.slots[i]).bind lossFate.after := fun i => by
    rw [State.aborted_slots hs i]
    cases s.frame.slots[i] <;> rfl
  rw [freedSlots_meetAll hslots, State.inAdmissionOrder, List.map_filterMap]
  refine List.filterMap_congr fun i _ => ?_
  cases s.frame.slots[i] <;> rfl

theorem State.recordOf_lossFate (s : State) : s.frame.admissions.filterMap (s.recordOf lossFate) =
    s.inAdmissionOrder.map fun a => a.2.record a.1 (.aborted, a.2.index) := by
  rw [State.inAdmissionOrder, List.map_filterMap]
  refine List.filterMap_congr fun i _ => ?_
  rw [State.recordOf]
  cases s.frame.slots[i] <;> rfl

theorem State.aborted_kept (s : State) : s.aborted.rail = { s.rail with state := .faulted .loss } ∧
    s.aborted.temp = s.temp ∧ s.aborted.pending = s.pending ∧ s.aborted.ghost.policy = s.ghost.policy ∧
    s.aborted.pixel.geometry = s.pixel.geometry := by
  obtain ⟨-, hrail, htemp, -, hpending, hpolicy, -, hgeometry⟩ := State.meetAll_kept lossFate s.frame.admissions s.faulted
  rw [State.aborted_eq]
  exact ⟨hrail, htemp, hpending, hpolicy, hgeometry⟩

theorem State.aborted_frame {s : State} (hs : s.frame.listSound) : s.aborted.frame = { s.frame with
    slots := s.aborted.frame.slots, admissions := [], phase := .stopped, driveActive := false } := by
  have hframe := State.meetAll_frame lossFate s.frame.admissions (s := s.faulted) hs
  have hnone : (s.frame.admissions.filter fun i =>
      (s.faulted.meetAll lossFate s.frame.admissions).frame.slots[i].isSome) = [] := by
    refine List.filter_eq_nil_iff.2 fun i _ => ?_
    have hfree := State.aborted_slots hs i
    rw [State.aborted_eq] at hfree
    exact Bool.eq_false_iff.1 (congrArg Option.isSome hfree)
  rw [State.aborted_eq]
  dsimp only
  conv_lhs => rw [hframe]
  exact congrArg (fun list => ({ s.frame with
    slots := (s.faulted.meetAll lossFate s.frame.admissions).frame.slots, admissions := list, phase := .stopped,
    driveActive := false } : FrameEngine)) hnone

/-! ### The whole event -/

/-- The state after a loss of the supply but for the waits it ends. -/
def State.lossEnded (s : State) : State :=
  (((s.aborted.recover (freedSlots s s.aborted)).installHeld (freedSlots s s.aborted)).raise .rail).idleNotice
    (freedSlots s s.aborted)

theorem State.supplyLoss_eq (s : State) :
    s.supplyLoss = s.lossEnded.endWaits ((freedSlots s s.aborted).map Slot.tag) := rfl

theorem State.lossEnded_queue {s : State} (hs : s.frame.listSound) : s.lossEnded.sched.queue =
    (if s.ghost.policy.autoRecovery = true then (s.inAdmissionOrder.map fun a =>
      ({ tag := a.2.tag, rect := s.pixel.extent a.2.hull, hull := a.2.hull, mode := .clear, policy := .force,
         recovery := true } : PendingEntry)).take (8 - s.sched.queue.length) else []) ++ s.sched.queue := by
  obtain ⟨-, -, -, hpolicy, hgeometry⟩ := s.aborted_kept
  have hentry : ∀ sl : Slot, s.aborted.recoveryEntry sl =
      { tag := sl.tag, rect := s.pixel.extent sl.hull, hull := sl.hull, mode := .clear, policy := .force,
        recovery := true } := fun sl => by
    obtain ⟨-, hwidth, hheight, -, -⟩ := (PixelStore.geometry_eq_iff _ _).1 hgeometry
    simp only [State.recoveryEntry, PixelStore.extent, hwidth, hheight]
  rw [State.lossEnded, State.idleNotice_sched, State.raise_sched, State.installHeld_sched, State.recover, hpolicy,
    State.freedSlots_aborted hs, List.map_map]
  split
  · rw [funext hentry, State.aborted_sched]
    rfl
  · rw [State.aborted_sched]
    rfl

/-- What a loss of the supply writes beside the notices, the store and the tiles. -/
theorem State.lossEnded_state {s : State} (hs : s.frame.listSound) :
    s.lossEnded.rail = { s.rail with state := .faulted .loss } ∧ (∀ i : Fin 16, s.lossEnded.frame.slots[i] = none) ∧
    s.lossEnded.frame = { s.frame with
      slots := s.lossEnded.frame.slots, admissions := [], phase := .stopped, driveActive := false } ∧
    s.lossEnded.temp = s.temp ∧ s.lossEnded.pixel = { s.pixel with next := s.lossEnded.pixel.next } ∧
    s.lossEnded.ghost.policy = s.ghost.policy ∧ s.lossEnded.pending = s.pending := by
  obtain ⟨hrail, htemp, hpending, hpolicy, hgeometry⟩ := s.aborted_kept
  obtain ⟨hsetUp, hwidth, hheight, hcols, hrows⟩ := (PixelStore.geometry_eq_iff _ _).1 hgeometry
  obtain ⟨himage, hbelieved⟩ := s.supplyLoss_planes
  rw [State.supplyLoss_pixel] at himage hbelieved
  have hframe : s.lossEnded.frame = s.aborted.frame := by
    rw [State.lossEnded, State.idleNotice_frame, State.raise_frame, State.installHeld_frame, State.recover_frame]
  have hpixel : s.lossEnded.pixel = s.aborted.pixel := by
    rw [State.lossEnded, State.idleNotice_pixel, State.raise_pixel, State.installHeld_pixel, State.recover_pixel]
  rw [hframe, hpixel, State.lossEnded, State.idleNotice_rail, State.raise_rail, State.installHeld_rail, State.recover_rail,
    State.idleNotice_temp, State.raise_temp, State.installHeld_temp, State.recover_temp, State.idleNotice_ghost,
    State.raise_ghost, State.installHeld_ghost, State.recover_ghost, State.idleNotice_pending, State.raise_pending,
    State.installHeld_pending, State.recover_pending]
  refine ⟨hrail, State.aborted_slots hs, State.aborted_frame hs, htemp, ?_, hpolicy, hpending⟩
  dsimp only
  rw [← himage, ← hbelieved, ← hsetUp, ← hwidth, ← hheight, ← hcols, ← hrows]

/-- A loss of the supply releases a held commit where a slot it aborted used the set. -/
theorem State.loss_releases_iff {s : State} (hs : s.frame.listSound) (h : HeldCommit) :
    (s.aborted.recover (freedSlots s s.aborted)).releases (freedSlots s s.aborted) h ↔
      ∃ a ∈ s.inAdmissionOrder, a.2.effective = h.mode ∧ a.2.band = h.band := by
  rw [State.releases, State.recover_frame]
  refine (and_iff_left ?_).trans ?_
  · rintro ⟨i, sl, hsl, -⟩
    cases (State.aborted_slots hs i).symm.trans hsl
  · rw [State.freedSlots_aborted hs]
    simp only [List.mem_map, exists_exists_and_eq_and]

/-- The notices of a loss of the supply: an ABORTED record for each slot, RAIL, and the kinds of the held commit and of the
idle part. -/
theorem State.notified_lossEnded {s : State} (hs : s.frame.listSound) (hrecords : s.notice.records.length ≤ 16) :
    Notified (s.inAdmissionOrder.map fun a => a.2.record a.1 (.aborted, a.2.index))
      (fun k => ((recordsRaise s.notice.records.length
          (s.inAdmissionOrder.map fun a => a.2.record a.1 (.aborted, a.2.index)) k ∨
        k = .commit ∧ ∃ h, s.wave.held = some h ∧ ∃ a ∈ s.inAdmissionOrder, a.2.effective = h.mode ∧ a.2.band = h.band) ∨
        k = .rail) ∨ (s.inAdmissionOrder ≠ [] ∧ s.lossEnded.sched.queue = []) ∧ k = .idle)
      s s.lossEnded := by
  have hslots := State.aborted_slots hs
  have haborted : Notified (s.inAdmissionOrder.map fun a => a.2.record a.1 (.aborted, a.2.index))
      (recordsRaise s.notice.records.length (s.inAdmissionOrder.map fun a => a.2.record a.1 (.aborted, a.2.index)))
      s s.aborted := by
    have hfaulted : Notified [] (fun _ => False) s s.faulted := .same hrecords rfl rfl
    have hmet := State.notified_meetAll lossFate hs.1 (s := s.faulted) hrecords
    have hstopped : Notified [] (fun _ => False) (s.faulted.meetAll lossFate s.frame.admissions) s.aborted :=
      .same hmet.records_length_le (by rw [State.aborted_eq]) (by rw [State.aborted_eq])
    have hall := (hfaulted.trans hmet).trans hstopped
    have hmade := s.recordOf_lossFate
    rw [List.nil_append, List.append_nil] at hall
    rw [← hmade]
    exact hall.congr fun k => by
      rw [false_or, or_false]
      rfl
  have hrecovered : Notified [] (fun _ => False) s.aborted (s.aborted.recover (freedSlots s s.aborted)) :=
    .same haborted.records_length_le (State.recover_notice _ _) (State.recover_link _ _)
  have hinstalled := State.notified_installHeld (freedSlots s s.aborted) hrecovered.records_length_le
  have hrail := Notified.raise .rail hinstalled.records_length_le
  have hall := (((haborted.trans hrecovered).trans hinstalled).trans hrail).raiseIf
    (freedSlots s s.aborted ≠ [] ∧ (((s.aborted.recover (freedSlots s s.aborted)).installHeld
      (freedSlots s s.aborted)).raise .rail).quiet = true) .idle
  rw [List.append_nil, List.append_nil, List.append_nil] at hall
  have hquiet : (((s.aborted.recover (freedSlots s s.aborted)).installHeld (freedSlots s s.aborted)).raise .rail).quiet = true ↔
      s.lossEnded.sched.queue = [] := by
    rw [State.quiet_iff, State.raise_frame, State.installHeld_frame, State.recover_frame, State.lossEnded,
      State.idleNotice_sched]
    exact and_iff_right hslots
  have hfreed : freedSlots s s.aborted ≠ [] ↔ s.inAdmissionOrder ≠ [] := by
    rw [State.freedSlots_aborted hs, ne_eq, List.map_eq_nil_iff]
  refine hall.congr fun k => ?_
  simp only [or_false, State.loss_releases_iff hs, hquiet, hfreed, State.recover_wave, State.aborted_wave]

theorem exec_pwrGoodLoss {s : State} (hrail : s.rail.state = .on) :
    exec .pwrGoodLoss s = .next (State.supplyLoss { s with rail.pwrGood := false }) := if_pos hrail

/-- The store after a loss of the supply, as far as the held commit goes. -/
theorem State.lossEnded_wave {s : State} (hs : s.frame.listSound) :
    (s.wave.held = none → s.lossEnded.wave = s.wave) ∧
    ∀ h, s.wave.held = some h →
      ((¬ ∃ a ∈ s.inAdmissionOrder, a.2.effective = h.mode ∧ a.2.band = h.band) → s.lossEnded.wave = s.wave) ∧
      ((∃ a ∈ s.inAdmissionOrder, a.2.effective = h.mode ∧ a.2.band = h.band) → s.wave.heldSound h → ∃ w : WaveformSet,
        w.isStaged s.wave ∧ w.charges = h.charges ∧ w.crc = h.crc ∧ s.lossEnded.wave.held = none ∧
        s.lossEnded.wave.staging = s.wave.staging ∧
        ∀ m b, s.lossEnded.wave.set? m b = if m = h.mode ∧ b = h.band then some w else s.wave.set? m b) := by
  have hended : s.lossEnded.wave =
      ((s.aborted.recover (freedSlots s s.aborted)).installHeld (freedSlots s s.aborted)).wave := by
    rw [State.lossEnded, State.idleNotice_wave, State.raise_wave]
  have hwave := State.installHeld_wave (freedSlots s s.aborted) (s.aborted.recover (freedSlots s s.aborted))
  simp only [← hended, State.recover_wave, State.aborted_wave, State.loss_releases_iff hs] at hwave
  exact hwave

/-- An aborted slot raises FAILED. -/
theorem recordsRaise_failed_iff (n : Nat) (l : List (Fin 16 × Slot)) :
    recordsRaise n (l.map fun a => a.2.record a.1 (.aborted, a.2.index)) .failed ↔ l ≠ [] := by
  cases l with
  | nil => simp [recordsRaise]
  | cons a l => exact iff_of_true ⟨_, List.mem_cons_self, fun h => by cases h⟩ (List.cons_ne_nil _ _)

/-- The levels of a pixel after a loss of the supply: set back where a slot drove it. -/
theorem State.levels_supplyLoss {s : State} (hlist : s.frame.listSound) (hm : s.memoryCanonical) (hr : s.rectsSound)
    (ho : s.ownersSound) (x y : Nat) (hx : x < 2048) :
    ((∃ (i : Fin 16) (sl : Slot), s.frame.slots[i] = some sl ∧ (s.pixel.driveSet sl).has x y = true) →
      s.supplyLoss.pixel.next.level x y = s.pixel.believed.level x y) ∧
    ((∀ (i : Fin 16) (sl : Slot), s.frame.slots[i] = some sl → (s.pixel.driveSet sl).has x y = false) →
      s.supplyLoss.pixel.next.level x y = s.pixel.next.level x y) := by
  obtain ⟨hin, hout⟩ := State.meetAll_levels lossFate hlist.1 (s := s.faulted) hm hr ho x y hx
  have hpixel : s.supplyLoss.pixel = (s.faulted.meetAll lossFate s.frame.admissions).pixel := by
    rw [State.supplyLoss_pixel, State.aborted_eq]
  rw [hpixel]
  refine ⟨fun ⟨i, sl, hsl, hdrives⟩ => ?_, fun hnone => ?_⟩
  · exact congrArg Prod.snd (hin i (mem_admissions hlist hsl) sl hsl hdrives)
  · refine congrArg Prod.snd (hout fun i _ sl hsl => ?_)
    rw [Bool.not_eq_true]
    exact hnone i sl hsl

/-- The record of a tile after a loss of the supply: released where a slot owned it. -/
theorem State.tile_supplyLoss {s : State} (hlist : s.frame.listSound) (ho : s.ownersSound) (x y : Nat)
    (hx : x < s.pixel.tileCols) (hy : y < s.pixel.tileRows) :
    s.supplyLoss.tile x y = if (s.tile x y).owner = none then s.tile x y
      else { s.tile x y with owner := none, condition := .unknown, rest := 0 } := by
  obtain ⟨hin, hout⟩ := State.meetAll_tile lossFate hlist.1 (s := s.faulted) ho x y hx hy
  have htile : s.supplyLoss.tile x y = (s.faulted.meetAll lossFate s.frame.admissions).tile x y :=
    State.tile_congr (by rw [State.supplyLoss_ghost, State.aborted_eq]) (by rw [State.supplyLoss_pixel, State.aborted_eq]) x y
  rw [htile]
  cases hown : (s.tile x y).owner with
  | none =>
    rw [if_pos rfl]
    refine hout fun i _ sl hsl hhull => ?_
    cases hown.symm.trans ((ho.2 x y i hx hy).2 ⟨sl, hsl, hhull⟩)
  | some i =>
    rw [if_neg (Option.some_ne_none i)]
    obtain ⟨sl, hsl, hhull⟩ := (ho.2 x y i hx hy).1 hown
    exact hin i (mem_admissions hlist hsl) sl hsl hhull

theorem State.length_tiles_supplyLoss (s : State) : s.supplyLoss.ghost.tiles.length = s.ghost.tiles.length := by
  have hmet : (s.faulted.meetAll lossFate s.frame.admissions).ghost.tiles.length = s.ghost.tiles.length := by
    refine State.meetAll_keeps (fun t => t.ghost.tiles.length = s.ghost.tiles.length) (fun t i sl hsl ht => ht)
      (fun t i sl o n hsl ht => ?_) rfl
    rw [State.finishSlot_ghost, State.releaseTiles, State.length_mapTiles, ht]
  rw [State.supplyLoss_ghost, State.aborted_eq]
  exact hmet

/-- Settles O56: every slot aborted, with its record, its recovery entry, its tiles and its levels. -/
theorem supplyLost : Obligations.SupplyLost := by
  refine ⟨fun s hrail hlist hrecords => ?_, fun s t hrail hledger hm ht => ?_⟩
  · intro aborted all entries releases
    have hlist' : (State.frame { s with rail.pwrGood := false }).listSound := hlist
    obtain ⟨hrail', hslots, hframe, htemp, hpixel, hpolicy, hpending⟩ := State.lossEnded_state hlist'
    obtain ⟨hnone, hsome⟩ := State.lossEnded_wave hlist'
    have hnotified := State.notified_lossEnded hlist' hrecords
    refine ⟨State.lossEnded { s with rail.pwrGood := false }, ?_, hrail', hslots, hframe, htemp, hpixel, hpolicy, hpending,
      State.lossEnded_queue hlist', hnotified.notice, fun k => ?_, hnotified.link, hnotified.pulse, hnone, hsome⟩
    · rw [exec_pwrGoodLoss hrail, State.supplyLoss_eq, State.freedSlots_aborted hlist', List.map_map]
      rfl
    · refine (hnotified.kinds k).trans (or_congr_right ?_)
      cases k with
      | done => simp [recordsRaise, aborted, State.inAdmissionOrder]
      | failed =>
        simp only [recordsRaise_failed_iff, reduceCtorEq, false_and, and_false, or_false]
        rfl
      | overflow => simp [recordsRaise, all, aborted, State.inAdmissionOrder]
      | commit => simp [recordsRaise, releases, aborted, State.inAdmissionOrder]
      | idle => simp [recordsRaise, aborted, State.inAdmissionOrder]
      | _ => simp [recordsRaise]
  · cases (exec_pwrGoodLoss hrail).symm.trans ht
    obtain ⟨hlist, ho, hr, -⟩ := hledger
    exact ⟨State.levels_supplyLoss (s := { s with rail.pwrGood := false }) hlist hm hr ho,
      State.length_tiles_supplyLoss _, State.tile_supplyLoss (s := { s with rail.pwrGood := false }) hlist ho⟩

end Sys2Proof.Machine
end


section
/-! PROOF. Chapters 8 and 9, every command at the notices: a property of the notices, the reply queue and ATTN that the
operations on them keep is kept by every command. -/

namespace Sys2Proof.Machine

/-! ### The operations on the notices and the replies -/

/-- The notices, the reply queue and the ATTN line. -/
def State.notices (s : State) : NoticeUnit × List Reply × Bool := (s.notice, s.link.replies, s.link.attn)

theorem State.notices_congr {s t : State} (h : t.notices = s.notices) :
    t.notice = s.notice ∧ t.link.replies = s.link.replies ∧ t.link.attn = s.link.attn := by
  simpa [State.notices] using h

/-- A property of the notices, the reply queue and the ATTN line that each operation on them keeps. -/
structure Upheld (P : State → Prop) : Prop where
  congr : ∀ {s t : State}, P s → t.notices = s.notices → P t
  raise : ∀ {s : State} (k : NoticeKind), k ≠ .done → P s → P (s.raise k)
  record : ∀ {s : State} (r : CompletionRecord), P s → P (s.joinRecord r)
  push : ∀ {s : State} (r : Reply), s.link.replies.length < 32 → P s → P (s.pushReply r)
  pop : ∀ {s : State}, P s → P s.popReply
  waits : ∀ {s : State} (ws : List WaitEntry) (es : List EndedWait),
    ws.length + es.length ≤ s.notice.waits.length + s.notice.ended.length → P s →
    P { s with notice := { s.notice with waits := ws, ended := es } }
  waitUpdate : ∀ {s : State} (f : Frame), P s → P (waitUpdateBody f s).state
  setNotices : ∀ {s : State} (f : Frame), P s → P (setNoticesBody f s).state
  fetchNotices : ∀ {s : State} (f : Frame), P s → P (fetchNoticesBody f s).state
  pulseEnd : ∀ {s : State}, s.notice.mode = .pulse → P s → P { s with link.attn := false }
  softReset : ∀ {s : State}, P s → P s.softReset
  reset : ∀ {s : State}, s.notices = State.reset.notices → P s

/-- The owner of a request leaves the notices and the replies alone. -/
def KeepsNotices (body : Frame → State → Answer) : Prop := ∀ f s, (body f s).state.notices = s.notices

namespace Upheld

variable {P : State → Prop} {s : State}

/-! ### Waits and replies -/

theorem serveList (h : Upheld P) (es : List EndedWait) (hlength : es.length ≤ s.notice.ended.length) (hs : P s) :
    P (State.serveList es s) := by
  induction es generalizing s with
  | nil => exact h.waits s.notice.waits [] (Nat.add_le_add_left (Nat.zero_le _) _) hs
  | cons e es ih =>
    rw [State.serveList]
    split
    next hroom =>
      exact ih (Nat.le_of_succ_le hlength) (h.push e.reply ((MessageLink.hasRoom_iff _).1 hroom) hs)
    next => exact h.waits s.notice.waits (e :: es) (Nat.add_le_add_left hlength _) hs

theorem serveWaits (h : Upheld P) (hs : P s) : P s.serveWaits := h.serveList _ le_rfl hs

theorem receiptReply (h : Upheld P) (r : Reply) (hs : P s) : P (s.receiptReply r) := by
  rw [State.receiptReply]
  split
  next hroom => exact h.push r ((MessageLink.hasRoom_iff _).1 hroom) (h.serveWaits hs)
  next => exact h.serveWaits hs

/-- The waits that end leave the one list for the other. -/
theorem endWaits (h : Upheld P) (ts : List Tag) (hs : P s) : P (s.endWaits ts) := by
  refine h.serveWaits (h.waits _ _ ?_ hs)
  rw [List.length_append, List.length_map]
  have hsplit := List.length_eq_length_filter_add (l := s.notice.waits)
    fun w => ts.contains w.waitedTag && !s.carries w.waitedTag
  beta_reduce
  omega

theorem raiseIf (h : Upheld P) (p : Prop) [Decidable p] {k : NoticeKind} (hk : k ≠ .done) (hs : P s) : P (s.raiseIf p k) := by
  rw [State.raiseIf]
  split
  · exact h.raise k hk hs
  · exact hs

theorem setFraming (h : Upheld P) (fr : Framing) (hs : P s) : P (s.setFraming fr) := h.congr hs rfl

theorem settlePass (h : Upheld P) (hs : P s) : P s.settlePass :=
  h.congr hs (by rw [State.notices, State.settlePass_notice, State.settlePass_link]; rfl)

theorem leaveQueue (h : Upheld P) (q : List PendingEntry) (hs : P s) : P (s.leaveQueue q) := by
  have hqueue : P { s with sched.queue := q } := h.congr hs rfl
  rw [State.leaveQueue]
  dsimp only
  split <;> split
  · exact h.raise _ (by decide) (h.raise _ (by decide) hqueue)
  · exact h.raise _ (by decide) hqueue
  · exact h.raise _ (by decide) hqueue
  · exact hqueue

/-! ### The taking of a request -/

theorem answerFrame (h : Upheld P) (f : Frame) {a : Answer} (hroom : a.state.link.replies.length < 32) (ha : P a.state) :
    P (answerFrame f a) := by
  have hreported : ∀ t : State, P t → P (if a.reported.isEmpty then t else t.endWaits a.reported) := fun t ht => by
    split
    · exact ht
    · exact h.endWaits _ ht
  rw [Sys2Proof.Machine.answerFrame]
  cases a.reply with
  | none => exact hreported _ ha
  | some p => exact hreported _ (h.push _ hroom ha)

theorem released (h : Upheld P) (hs : P s) : P s.released := h.congr hs rfl

/-- The taking of a request whose owner keeps the property and adds no reply of its own. -/
theorem of_takeRequest (h : Upheld P) {accepts : Byte → Bool} {body : Frame → State → Answer} {t : State}
    (hbody : ∀ f s, P s → P (body f s).state ∧ (body f s).state.link.replies.length ≤ s.link.replies.length) (hs : P s)
    (ht : takeRequest accepts body s = .next t) : P t := by
  rcases takeRequest_cases accepts body s with ⟨f, hoffers, -, htaken⟩ | hidle
  · cases htaken.symm.trans ht
    obtain ⟨hkept, hreplies⟩ := hbody f s.released (h.released hs)
    exact h.answerFrame f (hreplies.trans_lt (State.canTake_iff.1 hoffers.2).1) hkept
  · cases hidle.symm.trans ht
    exact hs

theorem of_fixedRequest (h : Upheld P) {kind : Byte} {n : Nat} {body : Frame → State → Answer} {t : State}
    (hbody : ∀ f s, P s → P (body f s).state ∧ (body f s).state.link.replies.length ≤ s.link.replies.length) (hs : P s)
    (ht : request kind (fixedLength n body) s = .next t) : P t := by
  refine h.of_takeRequest (fun f s hs => ?_) hs ht
  rw [fixedLength]
  split
  · exact hbody f s hs
  · exact ⟨hs, le_rfl⟩

theorem of_keepsNotices (h : Upheld P) {body : Frame → State → Answer} (hbody : KeepsNotices body) (f : Frame) (s : State)
    (hs : P s) : P (body f s).state ∧ (body f s).state.link.replies.length ≤ s.link.replies.length := by
  obtain ⟨-, hreplies, -⟩ := State.notices_congr (hbody f s)
  exact ⟨h.congr hs (hbody f s), by rw [hreplies]⟩

/-! ### The Frame Engine -/

theorem meetAll (h : Upheld P) (fate : Fate) (is : List (Fin 16)) (hs : P s) : P (s.meetAll fate is) := by
  refine State.meetAll_keeps P (fun t i sl _ ht => h.congr ht rfl) (fun t i sl o n _ ht => ?_) hs
  rw [State.finishSlot]
  exact h.record _ (h.congr ht rfl)

theorem installHeld (h : Upheld P) (freed : List Slot) (hs : P s) : P (s.installHeld freed) := by
  rcases s.installHeld_cases freed with hsame | ⟨c, -, -, -, hinstalled⟩
  · rw [hsame]
    exact hs
  · rw [hinstalled]
    exact h.raise _ (by decide) (h.congr hs rfl)

theorem idleNotice (h : Upheld P) (freed : List Slot) (hs : P s) : P (s.idleNotice freed) :=
  h.raiseIf (freed ≠ [] ∧ s.quiet = true) (by decide) hs

theorem supplyLoss (h : Upheld P) (hs : P s) : P s.supplyLoss := by
  have haborted : P s.aborted := by
    rw [State.aborted_eq]
    exact h.congr (h.meetAll lossFate s.frame.admissions (s := s.faulted) (h.congr hs rfl)) rfl
  rw [State.supplyLoss_eq]
  refine h.endWaits _ (h.idleNotice _ (h.raise _ (by decide) (h.installHeld _ (h.congr haborted ?_))))
  rw [State.notices, State.recover_notice, State.recover_link]
  rfl

theorem frameEnded (h : Upheld P) (hs : P s) : P s.frameEnded := by
  have hadvanced : P s.frameAdvanced := by
    rw [State.frameAdvanced_eq]
    exact h.meetAll frameFate s.frame.admissions (s := s.undriven) (h.congr hs rfl)
  exact h.idleNotice _ (h.installHeld _ hadvanced)

theorem examine (h : Upheld P) (n : Nat) (e : PendingEntry) (hs : P s) : P (s.examine n e) := by
  rcases s.examine_cases n e with hheld | ⟨-, ⟨o, eff, esc, -, hrefused⟩ | ⟨i, eff, esc, -, -, -, hentered⟩⟩
  · rw [hheld]
    exact h.congr hs rfl
  · rw [hrefused]
    exact h.endWaits _ (h.leaveQueue _ (h.record _ hs))
  · rw [hentered]
    exact h.endWaits _ (h.leaveQueue _ (h.congr hs rfl))

/-! ### The Temperature Unit -/

theorem compare (h : Upheld P) (t : Int) (inside : Bool) (hs : P s) : P (s.compare t inside) := by
  have hraised : ∀ u : State, P u → P (u.raiseTemp t) := fun u hu => h.raise _ (by decide) (h.congr hu rfl)
  rw [State.compare]
  dsimp only
  split
  case h_1 => exact hs
  case h_2 =>
    split
    · exact hs
    · exact hraised _ (h.congr hs rfl)
  case h_3 =>
    split
    · exact h.congr hs rfl
    · split
      · exact h.congr hs rfl
      · exact hraised _ (h.congr hs rfl)
  case h_4 => exact hraised _ hs

theorem failedSample (h : Upheld P) (hs : P s) : P s.failedSample := by
  rw [State.failedSample]
  dsimp only
  split
  · exact h.raise _ (by decide) (h.congr hs rfl)
  · exact h.congr hs rfl

end Upheld

end Sys2Proof.Machine
end


section
/-! PROOF. Chapters 8 and 9, every command at the notices: the requests and the events, and the two invariants that are
such properties (R127, R129; the capacities of R62, R131, R134, R147). -/

namespace Sys2Proof.Machine

/-! ### Owners that leave the notices alone -/

theorem keepsNotices_query (st : Status) (p : Frame → State → List Byte) : KeepsNotices fun f s => answer st (p f s) s :=
  fun _ _ => rfl

theorem keepsNotices_panelSetup : KeepsNotices panelSetupBody := by
  intro f s
  unfold panelSetupBody
  split <;> rfl

theorem keepsNotices_writeImage : KeepsNotices writeImageBody := by
  intro f s
  unfold writeImageBody
  dsimp only
  repeat' split
  all_goals rfl

theorem keepsNotices_fillImage : KeepsNotices fillImageBody := by
  intro f s
  unfold fillImageBody
  dsimp only
  split <;> rfl

theorem keepsNotices_read (plane : PixelStore → Plane) : KeepsNotices (readBody plane) := by
  intro f s
  unfold readBody
  dsimp only
  repeat' split
  all_goals rfl

theorem keepsNotices_loadWaveform : KeepsNotices loadWaveformBody := by
  intro f s
  unfold loadWaveformBody
  dsimp only
  repeat' split
  all_goals rfl

theorem keepsNotices_commitWaveform : KeepsNotices commitWaveformBody := by
  intro f s
  unfold commitWaveformBody
  dsimp only
  repeat' split
  all_goals rfl

theorem keepsNotices_eraseWaveform : KeepsNotices eraseWaveformBody := by
  intro f s
  unfold eraseWaveformBody
  repeat' split
  all_goals rfl

theorem keepsNotices_setBands : KeepsNotices setBandsBody := by
  intro f s
  unfold setBandsBody
  dsimp only
  repeat' split
  all_goals rfl

theorem keepsNotices_setSensor : KeepsNotices setSensorBody := by
  intro f s
  unfold setSensorBody
  dsimp only
  split <;> rfl

theorem keepsNotices_startUpdate : KeepsNotices startUpdateBody := by
  intro f s
  unfold startUpdateBody
  dsimp only
  repeat' split
  all_goals rfl

theorem keepsNotices_queryTiles : KeepsNotices queryTilesBody := by
  intro f s
  unfold queryTilesBody
  dsimp only
  repeat' split
  all_goals rfl

theorem keepsNotices_markTiles : KeepsNotices markTilesBody := by
  intro f s
  unfold markTilesBody
  dsimp only
  repeat' split
  all_goals rfl

theorem keepsNotices_setPolicy : KeepsNotices setPolicyBody := by
  intro f s
  unfold setPolicyBody
  dsimp only
  split <;> rfl

theorem keepsNotices_railResume : KeepsNotices railResumeBody := by
  intro f s
  unfold railResumeBody
  split <;> rfl

/-! ### The other owners add no reply of their own -/

theorem replies_waitUpdateBody (f : Frame) (s : State) : (waitUpdateBody f s).state.link.replies = s.link.replies := by
  unfold waitUpdateBody
  dsimp only
  repeat' split
  all_goals rfl

theorem replies_setNoticesBody (f : Frame) (s : State) : (setNoticesBody f s).state.link.replies = s.link.replies := by
  unfold setNoticesBody
  dsimp only
  split <;> rfl

theorem replies_cancelUpdateBody (f : Frame) (s : State) : (cancelUpdateBody f s).state.link.replies = s.link.replies := by
  simp only [cancelUpdateBody, answerOk_state, State.settlePass_link, State.leaveQueue_replies]

theorem replies_stopAllBody (f : Frame) (s : State) : (stopAllBody f s).state.link.replies = s.link.replies := by
  simp only [stopAllBody, answerOk_state, State.settlePass_link, State.leaveQueue_replies]

namespace Upheld

variable {P : State → Prop} {s t : State}

/-! ### The events -/

theorem sensorCycleEnd (h : Upheld P) (w : SensorWord) (hs : P s) (ht : execSensorCycleEnd w s = .next t) : P t := by
  unfold execSensorCycleEnd at ht
  dsimp only at ht
  split at ht
  · split at ht <;> cases ht
    · exact h.failedSample (h.congr hs rfl)
    · exact h.compare _ _ (h.congr hs rfl)
  · cases ht
    exact hs

theorem entryExamination (h : Upheld P) (hs : P s) (ht : execEntryExamination s = .next t) : P t := by
  unfold execEntryExamination at ht
  split at ht
  · split at ht
    · split at ht <;> cases ht
      · exact h.settlePass (h.examine _ _ hs)
      · exact h.settlePass hs
    · cases ht
      exact hs
  · cases ht
    exact hs

theorem frameStart (h : Upheld P) (hs : P s) (ht : execFrameStart s = .next t) : P t := by
  unfold execFrameStart at ht
  split at ht <;> cases ht
  · exact h.settlePass (h.congr hs rfl)
  · exact hs

theorem frameEnd (h : Upheld P) (hs : P s) (ht : execFrameEnd s = .next t) : P t := by
  unfold execFrameEnd at ht
  split at ht <;> cases ht
  · exact h.endWaits _ (h.frameEnded hs)
  · exact hs

theorem pwrGoodLoss (h : Upheld P) (hs : P s) (ht : execPwrGoodLoss s = .next t) : P t := by
  unfold execPwrGoodLoss at ht
  dsimp only at ht
  split at ht <;> cases ht
  · exact h.supplyLoss (h.congr hs rfl)
  · exact h.congr hs rfl

theorem timebaseTick (h : Upheld P) (hs : P s) (ht : execTimebaseTick s = .next t) : P t := by
  cases ht
  have hstepped : P s.stepTimers := by
    have hwaits := h.waits (s.notice.waits.map WaitEntry.tick) s.notice.ended (by rw [List.length_map]) hs
    exact h.congr hwaits rfl
  split
  · exact h.congr hstepped rfl
  · exact hstepped

theorem waitTimeCheckExpiry (h : Upheld P) (hs : P s) (ht : execWaitTimeCheckExpiry s = .next t) : P t := by
  unfold execWaitTimeCheckExpiry at ht
  split at ht
  next w hfind =>
    cases ht
    refine h.serveWaits (h.waits _ _ ?_ hs)
    have hmem := List.mem_of_find?_eq_some hfind
    have herase := List.length_eraseP_of_mem (p := fun w : WaitEntry => decide (w.timeLeft = 0)) hmem
      (List.find?_some (p := fun w : WaitEntry => decide (w.timeLeft = 0)) hfind)
    have hpos := List.length_pos_of_mem hmem
    rw [herase, List.length_append, List.length_singleton]
    omega
  next =>
    cases ht
    exact hs

theorem waitReplyPlaced (h : Upheld P) (hs : P s) (ht : execWaitReplyPlaced s = .next t) : P t := by
  unfold execWaitReplyPlaced at ht
  split at ht
  next e es hended =>
    split at ht <;> cases ht
    next hroom =>
      have hwaits := h.waits s.notice.waits es (by rw [hended, List.length_cons]; omega) hs
      exact h.push _ ((MessageLink.hasRoom_iff _).1 hroom) hwaits
    next => exact hs
  next =>
    cases ht
    exact hs

theorem attnPulseEnd (h : Upheld P) (hs : P s) (ht : execAttnPulseEnd s = .next t) : P t := by
  unfold execAttnPulseEnd at ht
  split at ht <;> cases ht
  next hpulse => exact h.pulseEnd hpulse.1 hs
  next => exact hs

theorem pwrGoodActive (h : Upheld P) (hs : P s) (ht : execPwrGoodActive s = .next t) : P t := by
  unfold execPwrGoodActive at ht
  dsimp only at ht
  split at ht <;> cases ht
  · split
    · exact hs
    · exact h.congr hs rfl
  · exact h.congr hs rfl

theorem rampTimerExpiry (h : Upheld P) (hs : P s) (ht : execRampTimerExpiry s = .next t) : P t := by
  unfold execRampTimerExpiry at ht
  split at ht <;> cases ht
  · exact h.raise _ (by decide) (h.congr hs rfl)
  · exact hs

theorem dischargeTimerExpiry (h : Upheld P) (hs : P s) (ht : execDischargeTimerExpiry s = .next t) : P t := by
  unfold execDischargeTimerExpiry at ht
  dsimp only at ht
  split at ht <;> cases ht
  · split <;> exact h.congr hs rfl
  · exact hs

theorem sensorTimerExpiry (h : Upheld P) (hs : P s) (ht : execSensorTimerExpiry s = .next t) : P t := by
  unfold execSensorTimerExpiry at ht
  split at ht <;> cases ht
  · exact h.congr hs rfl
  · exact hs

theorem gapEnd (h : Upheld P) (hs : P s) (ht : execGapEnd s = .next t) : P t := by
  unfold execGapEnd at ht
  split at ht <;> cases ht
  · exact h.congr hs rfl
  · exact hs

/-! ### The bytes of the host port -/

theorem of_reframes (h : Upheld P) (hs : P s) (ht : Reframes s (.next t)) : P t := by
  rcases ht with hidle | ⟨fr, -, hframed⟩
  · cases hidle
    exact hs
  · cases hframed
    exact h.setFraming fr hs

theorem badSync (h : Upheld P) {b : Byte} (hs : P s) (ht : execBadSync b s = .next t) : P t := by
  unfold execBadSync at ht
  split at ht
  · split at ht <;> cases ht
    · exact hs
    · exact h.receiptReply _ (h.setFraming _ hs)
  · cases ht
    exact hs

theorem headerTaken (h : Upheld P) {b : Byte} (hs : P s) (ht : execHeaderTaken b s = .next t) : P t := by
  unfold execHeaderTaken at ht
  split at ht <;> cases ht
  · unfold State.takeHeader
    split
    · exact h.receiptReply _ (h.setFraming _ hs)
    · split
      · exact h.receiptReply _ (h.setFraming _ hs)
      · split
        · exact h.congr hs rfl
        · exact h.setFraming _ hs
  · exact hs

theorem frameComplete (h : Upheld P) {b : Byte} (hs : P s) (ht : execFrameComplete b s = .next t) : P t := by
  unfold execFrameComplete at ht
  split at ht
  · split at ht <;> cases ht
    · exact h.congr hs rfl
    · exact hs
  · cases ht
    exact hs

theorem selectRelease (h : Upheld P) (hs : P s) (ht : execSelectRelease s = .next t) : P t := by
  unfold execSelectRelease at ht
  dsimp only at ht
  split at ht <;> cases ht
  · exact h.receiptReply _ (h.setFraming _ hs)
  · exact h.setFraming _ hs

theorem replySent (h : Upheld P) (hs : P s) (ht : execReplySent s = .next t) : P t := by
  rcases execReplySent_cases s with hidle | ⟨sent, r, rs, -, -, -, hsent⟩
  · cases hidle.symm.trans ht
    exact hs
  · cases hsent.symm.trans ht
    exact h.pop (h.setFraming _ hs)

/-! ### Every command -/

theorem of_exec (h : Upheld P) {c : Instr} (hs : P s) (ht : exec c s = .next t) : P t := by
  cases c with
  | powerOnReset =>
    cases ht
    exact h.reset rfl
  | transactionPrefix b => exact h.of_reframes hs (ht ▸ reframes_transactionPrefix b s)
  | badSync b => exact h.badSync hs ht
  | headerTaken b => exact h.headerTaken hs ht
  | frameComplete b => exact h.frameComplete hs ht
  | skipEnd b => exact h.of_reframes hs (ht ▸ reframes_skipEnd b s)
  | frameByteReceived b => exact h.of_reframes hs (ht ▸ reframes_frameByteReceived b s)
  | selectRelease => exact h.selectRelease hs ht
  | replySent => exact h.replySent hs ht
  | waitReplyPlaced => exact h.waitReplyPlaced hs ht
  | unknownKind => exact h.of_takeRequest (h.of_keepsNotices (keepsNotices_query .unknownKind fun _ _ => [])) hs ht
  | status => exact h.of_fixedRequest (h.of_keepsNotices (keepsNotices_query .ok fun _ s => s.statusRecord)) hs ht
  | resetPart =>
    refine h.of_fixedRequest (body := resetPartBody) (fun f s hs => ⟨h.softReset hs, ?_⟩) hs ht
    exact Nat.zero_le _
  | panelSetup => exact h.of_fixedRequest (h.of_keepsNotices keepsNotices_panelSetup) hs ht
  | writeImage => exact h.of_takeRequest (h.of_keepsNotices keepsNotices_writeImage) hs ht
  | fillImage => exact h.of_fixedRequest (h.of_keepsNotices keepsNotices_fillImage) hs ht
  | readImage => exact h.of_fixedRequest (h.of_keepsNotices (keepsNotices_read _)) hs ht
  | readPanel => exact h.of_fixedRequest (h.of_keepsNotices (keepsNotices_read _)) hs ht
  | loadWaveform => exact h.of_takeRequest (h.of_keepsNotices keepsNotices_loadWaveform) hs ht
  | commitWaveform => exact h.of_fixedRequest (h.of_keepsNotices keepsNotices_commitWaveform) hs ht
  | eraseWaveform => exact h.of_fixedRequest (h.of_keepsNotices keepsNotices_eraseWaveform) hs ht
  | listWaveforms => exact h.of_fixedRequest (body := listWaveformsBody) (h.of_keepsNotices fun _ _ => rfl) hs ht
  | setBands => exact h.of_fixedRequest (h.of_keepsNotices keepsNotices_setBands) hs ht
  | setSensor => exact h.of_fixedRequest (h.of_keepsNotices keepsNotices_setSensor) hs ht
  | sampleNow => exact h.of_fixedRequest (body := sampleNowBody) (h.of_keepsNotices fun _ _ => rfl) hs ht
  | sensorTimerExpiry => exact h.sensorTimerExpiry hs ht
  | sensorCycleEnd w => exact h.sensorCycleEnd w hs ht
  | gapEnd => exact h.gapEnd hs ht
  | timebaseTick => exact h.timebaseTick hs ht
  | startUpdate => exact h.of_fixedRequest (h.of_keepsNotices keepsNotices_startUpdate) hs ht
  | cancelUpdate =>
    refine h.of_fixedRequest (body := cancelUpdateBody) (fun f s hs => ⟨?_, (replies_cancelUpdateBody f s ▸ le_rfl)⟩) hs ht
    exact h.settlePass (h.leaveQueue _ (h.congr hs rfl))
  | queryQueue => exact h.of_fixedRequest (body := queryQueueBody) (h.of_keepsNotices fun _ _ => rfl) hs ht
  | queryTiles => exact h.of_fixedRequest (h.of_keepsNotices keepsNotices_queryTiles) hs ht
  | markTiles => exact h.of_fixedRequest (h.of_keepsNotices keepsNotices_markTiles) hs ht
  | setPolicy => exact h.of_fixedRequest (h.of_keepsNotices keepsNotices_setPolicy) hs ht
  | stopAll =>
    refine h.of_fixedRequest (body := stopAllBody) (fun f s hs => ⟨?_, (replies_stopAllBody f s ▸ le_rfl)⟩) hs ht
    exact h.settlePass (h.leaveQueue _ (h.congr hs rfl))
  | querySlots => exact h.of_fixedRequest (body := querySlotsBody) (h.of_keepsNotices fun _ _ => rfl) hs ht
  | setRails => exact h.of_fixedRequest (body := setRailsBody) (h.of_keepsNotices fun _ _ => rfl) hs ht
  | railResume => exact h.of_fixedRequest (h.of_keepsNotices keepsNotices_railResume) hs ht
  | setNotices =>
    exact h.of_fixedRequest (body := setNoticesBody)
      (fun f s hs => ⟨h.setNotices f hs, (replies_setNoticesBody f s ▸ le_rfl)⟩) hs ht
  | fetchNotices => exact h.of_fixedRequest (body := fetchNoticesBody) (fun f s hs => ⟨h.fetchNotices f hs, le_rfl⟩) hs ht
  | waitUpdate =>
    exact h.of_fixedRequest (body := waitUpdateBody)
      (fun f s hs => ⟨h.waitUpdate f hs, (replies_waitUpdateBody f s ▸ le_rfl)⟩) hs ht
  | waitTimeCheckExpiry => exact h.waitTimeCheckExpiry hs ht
  | attnPulseEnd => exact h.attnPulseEnd hs ht
  | pwrGoodActive => exact h.pwrGoodActive hs ht
  | rampTimerExpiry => exact h.rampTimerExpiry hs ht
  | pwrGoodLoss => exact h.pwrGoodLoss hs ht
  | dischargeTimerExpiry => exact h.dischargeTimerExpiry hs ht
  | frameStart => exact h.frameStart hs ht
  | entryExamination => exact h.entryExamination hs ht
  | frameEnd => exact h.frameEnd hs ht

end Upheld

end Sys2Proof.Machine
end


section
/-! PROOF. The invariants of the notices (R127, R129), and the bounds of the link and of the lists (R62, R131, R134, R143,
R147). -/

namespace Sys2Proof.Machine

/-! ### DONE and ATTN -/

theorem State.noticesSound_of_attn {s : State} (hdone : KindSet.mem .done s.notice.kinds = !s.notice.records.isEmpty)
    (hattn : s.notice.mode = .level → (s.link.attn = true ↔ s.link.replies ≠ [] ∨ ∃ k : NoticeKind,
      KindSet.mem k s.notice.kinds = true ∧ KindSet.mem k s.notice.enables = true)) : s.noticesSound := by
  refine ⟨hdone, fun hmode => Bool.eq_iff_iff.2 ?_⟩
  rw [hattn hmode, State.attnCondition_iff, KindSet.inter_ne_zero_iff]

/-- A state whose line has just been drawn. -/
theorem State.noticesSound_drawAttn {s : State} (c : Bool)
    (hdone : KindSet.mem .done s.notice.kinds = !s.notice.records.isEmpty) : (s.drawAttn c).noticesSound :=
  ⟨hdone, State.drawAttn_agrees s c⟩

theorem State.noticesSound_fetched {f : Frame} {s : State} (hs : s.noticesSound) :
    (fetchNoticesBody f s).state.noticesSound := by
  refine State.noticesSound_drawAttn (s := { s with
    notice := { s.notice with
      kinds := s.notice.kinds &&& ~~~kindsFetched f.payload (s.notice.records.drop 8),
      records := s.notice.records.drop 8 } }) false ?_
  dsimp only
  rw [KindSet.mem_sdiff, mem_kindsFetched, if_pos rfl, hs.1]
  cases hleft : (s.notice.records.drop 8).isEmpty with
  | true => simp
  | false =>
    have hrecords : s.notice.records ≠ [] := by
      rintro hnil
      rw [hnil] at hleft
      cases hleft
    simpa using hrecords

theorem upheld_noticesSound : Upheld State.noticesSound where
  congr := by
    intro s t hs h
    obtain ⟨hnotice, hreplies, hattn⟩ := State.notices_congr h
    unfold State.noticesSound State.attnCondition
    rw [hnotice, hreplies, hattn]
    exact hs
  raise := by
    intro s k hk hs
    refine State.noticesSound_drawAttn (s := { s with notice.kinds := s.notice.kinds ||| k.bit }) _ ?_
    dsimp only
    rw [KindSet.mem_raise, hs.1, decide_eq_false (Ne.symm hk), Bool.or_false]
  record := by
    intro s r hs
    refine State.noticesSound_of_attn ?_ fun hmode => ?_
    · rw [State.joinRecord_mem, State.joinRecord_records]
      simp
    · rw [State.joinRecord_mode] at hmode
      rw [State.joinRecord_level_iff r s hmode, State.joinRecord_replies, State.joinRecord_enables]
  push := fun {s} r _ hs => State.noticesSound_drawAttn (s := { s with link.replies := s.link.replies ++ [r] }) _ hs.1
  pop := fun {s} hs => State.noticesSound_drawAttn (s := { s with link.replies := s.link.replies.tail }) _ hs.1
  waits := fun _ _ _ hs => hs
  waitUpdate := by
    intro s f hs
    unfold waitUpdateBody
    dsimp only
    repeat' split
    all_goals exact hs
  setNotices := by
    intro s f hs
    unfold setNoticesBody
    dsimp only
    split
    · exact State.noticesSound_drawAttn _ hs.1
    · exact hs
  fetchNotices := fun _ hs => State.noticesSound_fetched hs
  pulseEnd := fun {s} hmode hs => ⟨hs.1, fun hlevel => by cases hmode.symm.trans hlevel⟩
  softReset := by
    intro s _
    rw [State.softReset]
    exact State.noticesSound_drawAttn false BitVec.getLsbD_zero
  reset := by
    intro s h
    obtain ⟨hnotice, hreplies, hattn⟩ := State.notices_congr h
    unfold State.noticesSound State.attnCondition
    rw [hnotice, hreplies, hattn]
    exact ⟨rfl, fun _ => rfl⟩

/-- Settles O60: the property is kept by every operation on the notices, and so by every command. -/
theorem noticesStaySound : Obligations.NoticesStaySound := fun _ _ _ hs ht => upheld_noticesSound.of_exec hs ht

/-! ### The lists -/

/-- The lists of the Notice Unit and the reply queue are within their capacities. -/
def State.noticeListsBounded (s : State) : Prop :=
  s.notice.records.length ≤ 16 ∧ s.notice.waits.length + s.notice.ended.length ≤ 4 ∧ s.link.replies.length ≤ 32

theorem upheld_noticeListsBounded : Upheld State.noticeListsBounded where
  congr := by
    intro s t hs h
    obtain ⟨hnotice, hreplies, -⟩ := State.notices_congr h
    unfold State.noticeListsBounded
    rw [hnotice, hreplies]
    exact hs
  raise := fun _ _ hs => hs
  record := by
    intro s r ⟨hrecords, hwaits, hreplies⟩
    refine ⟨?_, by rw [State.joinRecord_waits, State.joinRecord_ended]; exact hwaits,
      by rw [State.joinRecord_replies]; exact hreplies⟩
    rw [(Notified.record r hrecords).records, List.length_drop]
    omega
  push := fun r hroom ⟨hrecords, hwaits, _⟩ => ⟨hrecords, hwaits, by
    rw [State.pushReply_replies, List.length_append, List.length_singleton]
    omega⟩
  pop := fun {s} ⟨hrecords, hwaits, hreplies⟩ => ⟨hrecords, hwaits, by
    rw [State.popReply_replies, List.length_tail]
    omega⟩
  waits := fun ws es hlength ⟨hrecords, hwaits, hreplies⟩ => ⟨hrecords, hlength.trans hwaits, hreplies⟩
  waitUpdate := by
    intro s f hs
    have hrecords := hs.1
    have hreplies := hs.2.2
    unfold waitUpdateBody
    dsimp only
    split
    · exact hs
    · split
      · exact hs
      next hroom =>
        have hcapacity : Config.waitCapacity = 4 := rfl
        refine ⟨hrecords, ?_, hreplies⟩
        change (s.notice.waits ++ [_]).length + s.notice.ended.length ≤ 4
        rw [List.length_append, List.length_singleton]
        omega
  setNotices := by
    intro s f hs
    unfold setNoticesBody
    dsimp only
    split <;> exact hs
  fetchNotices := fun {s} f ⟨hrecords, hwaits, hreplies⟩ => by
    refine ⟨?_, hwaits, hreplies⟩
    change (s.notice.records.drop 8).length ≤ 16
    rw [List.length_drop]
    omega
  pulseEnd := fun _ hs => hs
  softReset := fun {s} _ => ⟨Nat.zero_le _, Nat.zero_le _, Nat.zero_le _⟩
  reset := by
    intro s h
    obtain ⟨hnotice, hreplies, -⟩ := State.notices_congr h
    unfold State.noticeListsBounded
    rw [hnotice, hreplies]
    exact ⟨Nat.zero_le _, Nat.zero_le _, Nat.zero_le _⟩

/-! ### The pending queue -/

theorem State.length_recover_le {s : State} (aborted : List Slot) (h : s.sched.queue.length ≤ 8) :
    (s.recover aborted).sched.queue.length ≤ 8 := by
  have hcapacity : Config.queueCapacity = 8 := rfl
  rw [State.recover]
  split
  · dsimp only
    rw [List.length_append, List.length_take]
    omega
  · exact h

theorem CoreStep.queueBounded {s u : State} {c : Instr} (h : CoreStep s c u) (hs : s.sched.queue.length ≤ 8) :
    u.sched.queue.length ≤ 8 := by
  have hcapacity : Config.queueCapacity = 8 := rfl
  cases h with
  | powerOnReset => exact Nat.zero_le _
  | resetPart => exact Nat.zero_le _
  | queued e _ hroom | queuedRising e _ hroom =>
    change (s.sched.queue ++ [e]).length ≤ 8
    rw [List.length_append, List.length_singleton]
    omega
  | cancel gone =>
    rw [State.settlePass_sched]
    exact (List.length_filter_le _ _).trans hs
  | stopAll =>
    rw [State.settlePass_sched]
    exact Nat.zero_le _
  | lost =>
    rw [State.supplyLoss_sched]
    exact State.length_recover_le _ (by rw [State.aborted_sched]; exact hs)
  | frameStart | passed | waits =>
    rw [State.settlePass_sched]
    exact hs
  | refused | admitted =>
    rw [State.settlePass_sched]
    exact (List.length_eraseIdx_le _ _).trans hs
  | frameEnd =>
    rw [State.installHeld_sched, State.frameAdvanced_sched]
    exact hs
  | _ => exact hs

theorem queueBounded_of_exec {c : Instr} {s t : State} (hs : s.sched.queue.length ≤ 8) (ht : exec c s = .next t) :
    t.sched.queue.length ≤ 8 :=
  exec_keeps (fun u => u.sched.queue.length ≤ 8) (fun _ => Iff.rfl) (fun _ _ _ => CoreStep.queueBounded) hs ht

/-! ### The receiving side -/

/-- The framing state is within its bounds, and the frames held fit the receive buffer. -/
def State.receiptBounded (s : State) : Prop := s.link.framing.sound ∧ s.link.reserved ≤ 16384

theorem Framing.sound_softReset (fr : Framing) : fr.softReset.sound := by
  cases fr <;> trivial

namespace State.receiptBounded

variable {s t : State}

theorem congr (hs : s.receiptBounded) (h : t.receipt = s.receipt) : t.receiptBounded := by
  obtain ⟨hframing, hframes, -⟩ := (State.receipt_eq_iff s t).1 h
  rw [State.receiptBounded, MessageLink.reserved, hframing, hframes]
  exact hs

theorem released (hs : s.receiptBounded) : s.released.receiptBounded := ⟨hs.1, s.reserved_released_le.trans hs.2⟩

theorem of_takeRequest {accepts : Byte → Bool} {body : Frame → State → Answer} (hbody : KeepsReceipt body)
    (hs : s.receiptBounded) (ht : takeRequest accepts body s = .next t) : t.receiptBounded := by
  rcases takeRequest_cases accepts body s with ⟨f, -, -, htaken⟩ | hidle
  · cases htaken.symm.trans ht
    exact hs.released.congr ((answerFrame_receipt _ _).trans (hbody f _))
  · cases hidle.symm.trans ht
    exact hs

theorem of_fixedRequest {kind : Byte} {n : Nat} {body : Frame → State → Answer} (hbody : KeepsReceipt body)
    (hs : s.receiptBounded) (ht : request kind (fixedLength n body) s = .next t) : t.receiptBounded :=
  of_takeRequest (hbody.fixedLength n) hs ht

/-- A new framing state that reserves no more. -/
theorem setFraming {fr : Framing} (hs : s.receiptBounded) (hfr : fr.sound) (hle : fr.reserved ≤ s.link.framing.reserved) :
    (s.setFraming fr).receiptBounded := ⟨hfr, (Nat.add_le_add_left hle _).trans hs.2⟩

theorem receiptReply (hs : s.receiptBounded) (r : Reply) : (s.receiptReply r).receiptBounded :=
  hs.congr (State.receipt_receiptReply r s)

theorem resetPart (hs : s.receiptBounded) (ht : execResetPart s = .next t) : t.receiptBounded := by
  rcases takeRequest_cases _ _ s with ⟨f, -, -, htaken⟩ | hidle
  · cases htaken.symm.trans ht
    refine congr ?_ (answerFrame_receipt _ _)
    rw [fixedLength]
    split
    · refine ⟨?_, (State.softReset_reserved _).trans_le (Nat.zero_le _)⟩
      exact Framing.sound_softReset (List.foldl State.freeSlotSilently s.released s.released.frame.active).link.framing
    · exact hs.released
  · cases hidle.symm.trans ht
    exact hs

theorem transactionPrefix (hs : s.receiptBounded) {b : Byte} (ht : execTransactionPrefix b s = .next t) :
    t.receiptBounded := by
  unfold execTransactionPrefix at ht
  split at ht <;> cases ht
  · split
    · exact hs.setFraming (fr := .header []) (Nat.zero_le _) (Nat.zero_le _)
    · split
      · exact hs.setFraming (fr := .read 0 false) trivial (Nat.zero_le _)
      · exact hs.setFraming (fr := .ignore) trivial (Nat.zero_le _)
  · exact hs

theorem badSync (hs : s.receiptBounded) {b : Byte} (ht : execBadSync b s = .next t) : t.receiptBounded := by
  unfold execBadSync at ht
  split at ht
  · split at ht <;> cases ht
    · exact hs
    · exact (hs.setFraming (fr := .discard) trivial (Nat.zero_le _)).receiptReply _
  · cases ht
    exact hs

/-- A header of a frame to be reserved has the room it asks for. -/
theorem takeHeader (hs : s.receiptBounded) (hnone : s.link.framing.reserved = 0) (kind : Byte) (tag : Tag) {n : Nat}
    (hn : n ≤ 65535) : (s.takeHeader kind tag n).receiptBounded := by
  have hmax : Config.maxPayload = 4112 := rfl
  have hheld : s.link.reserved = (s.link.frames.map Frame.reserved).sum := by
    rw [MessageLink.reserved, hnone, Nat.add_zero]
  unfold State.takeHeader
  split
  next hlong => exact (hs.setFraming (fr := .skip n) ⟨by omega, hn⟩ (Nat.zero_le _)).receiptReply _
  next hshort =>
    split
    next =>
      split
      next => exact (hs.setFraming (fr := .header []) (Nat.zero_le _) (Nat.zero_le _)).receiptReply _
      next hpos => exact (hs.setFraming (fr := .skip n) ⟨by omega, hn⟩ (Nat.zero_le _)).receiptReply _
    next hroom =>
      have hfree : s.link.reserved + (6 + n) ≤ 16384 := by
        have hroom' : 6 + n ≤ 16384 - s.link.reserved := Nat.not_lt.1 hroom
        omega
      split
      next hzero =>
        refine ⟨Nat.zero_le _, ?_⟩
        have hsum : ((s.link.frames ++ [({ kind := kind, tag := tag, payload := [] } : Frame)]).map Frame.reserved).sum +
            Framing.reserved (.header []) = s.link.reserved + 6 := by
          rw [hheld]
          simp [Frame.reserved, Framing.reserved, Config.requestHeaderBytes]
        exact hsum.trans_le (by omega)
      next hpos =>
        refine ⟨⟨Nat.pos_of_ne_zero hpos, by omega⟩, ?_⟩
        have hsum : (s.link.frames.map Frame.reserved).sum + Framing.reserved (.payload kind tag n []) =
            s.link.reserved + (6 + n) := by
          rw [hheld]
          simp [Framing.reserved, Config.requestHeaderBytes]
        exact hsum.trans_le hfree

theorem headerTaken (hs : s.receiptBounded) {b : Byte} (ht : execHeaderTaken b s = .next t) : t.receiptBounded := by
  unfold execHeaderTaken at ht
  split at ht <;> cases ht
  next n0 hf =>
    refine hs.takeHeader (by rw [hf]; rfl) _ _ ?_
    have hlo := n0.isLt
    have hhi := b.isLt
    omega
  next => exact hs

/-- A frame that is complete keeps the room it had reserved. -/
theorem frameComplete (hs : s.receiptBounded) {b : Byte} (ht : execFrameComplete b s = .next t) : t.receiptBounded := by
  unfold execFrameComplete at ht
  split at ht
  next kind tag n got hf =>
    split at ht <;> cases ht
    next hlength =>
      have hsame : ((s.link.frames ++ [({ kind := kind, tag := tag, payload := got ++ [b] } : Frame)]).map Frame.reserved).sum +
          Framing.reserved (.header []) = s.link.reserved := by
        simp [MessageLink.reserved, Frame.reserved, Framing.reserved, hf, hlength]
      exact ⟨Nat.zero_le _, hsame.trans_le hs.2⟩
    next => exact hs
  next =>
    cases ht
    exact hs

theorem skipEnd (hs : s.receiptBounded) {b : Byte} (ht : execSkipEnd b s = .next t) : t.receiptBounded := by
  unfold execSkipEnd at ht
  split at ht <;> cases ht
  · exact hs.setFraming (fr := .header []) (Nat.zero_le _) (Nat.zero_le _)
  · exact hs

theorem frameByteReceived (hs : s.receiptBounded) {b : Byte} (ht : execFrameByteReceived b s = .next t) :
    t.receiptBounded := by
  have hbounds := hs.1
  unfold execFrameByteReceived at ht
  split at ht
  case h_1 hf =>
    split at ht <;> cases ht
    · exact hs.setFraming (fr := .header [b]) (show 1 ≤ 5 by decide) (Nat.zero_le _)
    · exact hs
  case h_2 got _ hf =>
    split at ht <;> cases ht
    next hlength =>
      refine hs.setFraming (fr := .header (got ++ [b])) ?_ (Nat.zero_le _)
      change (got ++ [b]).length ≤ 5
      rw [List.length_append, List.length_singleton]
      omega
    next => exact hs
  case h_3 kind tag n got hf =>
    split at ht <;> cases ht
    next hlength =>
      rw [hf] at hbounds
      refine hs.setFraming (fr := .payload kind tag n (got ++ [b])) ⟨?_, hbounds.2⟩ (by rw [hf]; exact le_rfl)
      rw [List.length_append, List.length_singleton]
      exact hlength
    next => exact hs
  case h_4 n hf =>
    split at ht <;> cases ht
    next hpos =>
      rw [hf] at hbounds
      exact hs.setFraming (fr := .skip (n - 1)) ⟨by omega, (Nat.sub_le n 1).trans hbounds.2⟩ (Nat.zero_le _)
    next => exact hs
  case h_5 sent hf =>
    split at ht
    · cases ht
      exact hs.setFraming (fr := .read 0 true) trivial (Nat.zero_le _)
    · split at ht <;> cases ht
      · exact hs.setFraming (fr := .read (sent + 1) false) trivial (Nat.zero_le _)
      · exact hs
  case h_6 =>
    cases ht
    exact hs

theorem selectRelease (hs : s.receiptBounded) (ht : execSelectRelease s = .next t) : t.receiptBounded :=
  congr (hs.setFraming (fr := .selectWait) trivial (Nat.zero_le _)) (receipt_of_execSelectRelease ht)

theorem replySent (hs : s.receiptBounded) (ht : execReplySent s = .next t) : t.receiptBounded := by
  rcases execReplySent_cases s with hidle | ⟨sent, r, rs, -, -, -, hsent⟩
  · cases hidle.symm.trans ht
    exact hs
  · cases hsent.symm.trans ht
    exact (hs.setFraming (fr := .read 0 false) trivial (Nat.zero_le _)).congr (State.receipt_popReply _)

/-! ### Every command -/

theorem of_exec (c : Instr) (hs : s.receiptBounded) (ht : exec c s = .next t) : t.receiptBounded := by
  cases c with
  | powerOnReset =>
    cases ht
    exact ⟨trivial, Nat.zero_le _⟩
  | transactionPrefix b => exact hs.transactionPrefix ht
  | badSync b => exact hs.badSync ht
  | headerTaken b => exact hs.headerTaken ht
  | frameComplete b => exact hs.frameComplete ht
  | skipEnd b => exact hs.skipEnd (b := b) ht
  | frameByteReceived b => exact hs.frameByteReceived ht
  | selectRelease => exact hs.selectRelease ht
  | replySent => exact hs.replySent ht
  | resetPart => exact hs.resetPart ht
  | unknownKind => exact of_takeRequest (keepsReceipt_query .unknownKind fun _ _ => []) hs ht
  | status => exact of_fixedRequest (keepsReceipt_query .ok fun _ s => s.statusRecord) hs ht
  | panelSetup => exact of_fixedRequest keepsReceipt_panelSetup hs ht
  | writeImage => exact of_takeRequest keepsReceipt_writeImage hs ht
  | fillImage => exact of_fixedRequest keepsReceipt_fillImage hs ht
  | readImage => exact of_fixedRequest (keepsReceipt_read _) hs ht
  | readPanel => exact of_fixedRequest (keepsReceipt_read _) hs ht
  | loadWaveform => exact of_takeRequest keepsReceipt_loadWaveform hs ht
  | commitWaveform => exact of_fixedRequest keepsReceipt_commitWaveform hs ht
  | eraseWaveform => exact of_fixedRequest keepsReceipt_eraseWaveform hs ht
  | listWaveforms => exact of_fixedRequest (body := listWaveformsBody) (fun _ _ => rfl) hs ht
  | setBands => exact of_fixedRequest keepsReceipt_setBands hs ht
  | setSensor => exact of_fixedRequest keepsReceipt_setSensor hs ht
  | sampleNow => exact of_fixedRequest (body := sampleNowBody) (fun _ _ => rfl) hs ht
  | startUpdate => exact of_fixedRequest keepsReceipt_startUpdate hs ht
  | cancelUpdate => exact of_fixedRequest keepsReceipt_cancelUpdate hs ht
  | queryQueue => exact of_fixedRequest (body := queryQueueBody) (fun _ _ => rfl) hs ht
  | queryTiles => exact of_fixedRequest keepsReceipt_queryTiles hs ht
  | markTiles => exact of_fixedRequest keepsReceipt_markTiles hs ht
  | setPolicy => exact of_fixedRequest keepsReceipt_setPolicy hs ht
  | stopAll => exact of_fixedRequest keepsReceipt_stopAll hs ht
  | querySlots => exact of_fixedRequest (body := querySlotsBody) (fun _ _ => rfl) hs ht
  | setRails => exact of_fixedRequest (body := setRailsBody) (fun _ _ => rfl) hs ht
  | railResume => exact of_fixedRequest keepsReceipt_railResume hs ht
  | setNotices => exact of_fixedRequest keepsReceipt_setNotices hs ht
  | fetchNotices => exact of_fixedRequest (body := fetchNoticesBody) (fun _ _ => rfl) hs ht
  | waitUpdate => exact of_fixedRequest keepsReceipt_waitUpdate hs ht
  | waitReplyPlaced => exact hs.congr (receipt_of_execWaitReplyPlaced ht)
  | sensorTimerExpiry => exact hs.congr (receipt_of_execSensorTimerExpiry ht)
  | sensorCycleEnd w => exact hs.congr (receipt_of_execSensorCycleEnd ht)
  | gapEnd => exact hs.congr (receipt_of_execGapEnd ht)
  | timebaseTick => exact hs.congr (receipt_of_execTimebaseTick ht)
  | waitTimeCheckExpiry => exact hs.congr (receipt_of_execWaitTimeCheckExpiry ht)
  | attnPulseEnd => exact hs.congr (receipt_of_execAttnPulseEnd ht)
  | pwrGoodActive => exact hs.congr (receipt_of_execPwrGoodActive ht)
  | rampTimerExpiry => exact hs.congr (receipt_of_execRampTimerExpiry ht)
  | pwrGoodLoss => exact hs.congr (receipt_of_execPwrGoodLoss ht)
  | dischargeTimerExpiry => exact hs.congr (receipt_of_execDischargeTimerExpiry ht)
  | frameStart => exact hs.congr (receipt_of_execFrameStart ht)
  | entryExamination => exact hs.congr (receipt_of_execEntryExamination ht)
  | frameEnd => exact hs.congr (receipt_of_execFrameEnd ht)

end State.receiptBounded

/-- Settles O12: the receiving side, HOLD, the queue and the lists, each by its own account of every command. -/
theorem linkAndListsStayBounded : Obligations.LinkAndListsStayBounded := by
  intro c s t hlink hlists ht
  obtain ⟨hqueue, hrecords, hwaits, hreplies⟩ := hlists
  obtain ⟨hframing, hreserved⟩ := State.receiptBounded.of_exec c ⟨hlink.1, hlink.2.1⟩ ht
  obtain ⟨hlow, hhigh, -⟩ := (exec_receiptStep c hlink ht).hold_agrees
  obtain ⟨hrecords', hwaits', hreplies'⟩ := upheld_noticeListsBounded.of_exec ⟨hrecords, hwaits, hreplies⟩ ht
  exact ⟨⟨hframing, hreserved, hreplies', hlow, hhigh⟩, queueBounded_of_exec hqueue ht, hrecords', hwaits', hreplies'⟩

end Sys2Proof.Machine
end


section
/-! PROOF. The four queries of the state: the records they answer with, and the layout of their numbers. -/

namespace Sys2Proof.Machine

/-! ### Numbers read back from the bytes sent -/

theorem u8At_of_getD {p : List Byte} {i n : Nat} (hp : p.getD i 0#8 = BitVec.ofNat 8 n) (hn : n < 256) : u8At p i = n := by
  rw [u8At, hp, BitVec.toNat_ofNat]
  exact Nat.mod_eq_of_lt hn

theorem u16At_of_getD {p : List Byte} {i n : Nat} (hlow : p.getD i 0#8 = BitVec.ofNat 8 n)
    (hhigh : p.getD (i + 1) 0#8 = BitVec.ofNat 8 (n / 256)) (hn : n < 65536) : u16At p i = n := by
  rw [u16At, u8At_of_getD hhigh (by omega), u8At, hlow, BitVec.toNat_ofNat]
  omega

theorem u16At_lt (p : List Byte) (i : Nat) : u16At p i < 65536 := by
  have hlow := u8At_le p i
  have hhigh := u8At_le p (i + 1)
  rw [u16At]
  omega

theorem i16At_of_getD {p : List Byte} {i : Nat} {z : Int}
    (hlow : p.getD i 0#8 = BitVec.ofNat 8 (BitVec.ofInt 16 z).toNat)
    (hhigh : p.getD (i + 1) 0#8 = BitVec.ofNat 8 ((BitVec.ofInt 16 z).toNat / 256)) (hmin : -32768 ≤ z) (hmax : z ≤ 32767) :
    i16At p i = z := by
  rw [i16At, u16At_of_getD hlow hhigh (BitVec.isLt _), BitVec.ofNat_toNat, BitVec.setWidth_eq, BitVec.toInt_ofInt]
  exact Int.bmod_eq_of_le (by omega) (by omega)

theorem i16At_eq (p : List Byte) (i : Nat) :
    i16At p i = if u16At p i < 32768 then (u16At p i : Int) else (u16At p i : Int) - 65536 := by
  have hlt := u16At_lt p i
  rw [i16At, BitVec.toInt_eq_toNat_cond, BitVec.toNat_ofNat, Nat.mod_eq_of_lt hlt]
  split <;> split <;> omega

theorem encI16_eq {z : Int} (hmin : -32768 ≤ z) (hmax : z ≤ 32767) :
    encI16 z = encU16 (if 0 ≤ z then z else z + 65536).toNat := by
  rw [encI16, BitVec.toNat_ofInt]
  congr 1
  split <;> omega

theorem encU32_eq (n : Nat) :
    encU32 n = [BitVec.ofNat 8 n, BitVec.ofNat 8 (n / 256), BitVec.ofNat 8 (n / 65536), BitVec.ofNat 8 (n / 16777216)] := by
  rw [encU32, encU16, encU16, Nat.div_div_eq_div_mul]
  rfl

theorem encHeld_eq (o : Option HeldCommit) :
    encHeld o = [BitVec.ofNat 8 (if o.isSome then 1 else 0), BitVec.ofNat 8 (o.elim 0 (·.mode.code)),
      BitVec.ofNat 8 (o.elim 0 (·.band.val))] := by
  cases o <;> rfl

theorem Mode.code_le (m : Mode) : m.code ≤ 4 := by
  cases m <;> decide

/-- The mode and the band of a held commit are read back from their bytes, and as 0 where none is held. -/
theorem heldFields_of_getD {o : Option HeldCommit} {p : List Byte} {i : Nat}
    (hmode : p.getD i 0#8 = BitVec.ofNat 8 (o.elim 0 (·.mode.code)))
    (hband : p.getD (i + 1) 0#8 = BitVec.ofNat 8 (o.elim 0 (·.band.val))) :
    (∀ h, o = some h → u8At p i = h.mode.code ∧ u8At p (i + 1) = h.band.val) ∧
      (o = none → u8At p i = 0 ∧ u8At p (i + 1) = 0) := by
  refine ⟨fun h ho => ?_, fun ho => ?_⟩
  · subst ho
    have hcode := h.mode.code_le
    exact ⟨u8At_of_getD hmode (by omega), u8At_of_getD hband (h.band.isLt.trans (by omega))⟩
  · subst ho
    exact ⟨u8At_of_getD hmode (by omega), u8At_of_getD hband (by omega)⟩

/-- A latch of samples, or its mark of emptiness, fits the sixteen bits of its field. -/
theorem sample_getD_bounds {o : Option Int} (h : ∀ t, o = some t → isSample t) :
    -32768 ≤ o.getD (-32768) ∧ o.getD (-32768) ≤ 32767 := by
  cases o with
  | none => decide
  | some t =>
    obtain ⟨hmin, hmax⟩ := h t rfl
    rw [Option.getD_some]
    omega

theorem RailState.codes_le (r : RailState) : r.code ≤ 4 ∧ r.causeCode ≤ 2 := by
  cases r with
  | off | rising | on | falling => exact ⟨by simp only [RailState.code]; omega, Nat.zero_le _⟩
  | faulted c => cases c <;> exact ⟨Nat.le_refl _, by simp [RailState.causeCode]⟩

theorem ite_bool_lt (b : Bool) : (if b then 1 else 0) < 256 := by
  cases b <;> decide

/-! ### STATUS -/

theorem State.statusRecord_eq (s : State) : s.statusRecord =
    [BitVec.ofNat 8 s.rail.state.code, BitVec.ofNat 8 s.rail.state.causeCode, BitVec.ofNat 8 s.frame.activeCount,
      BitVec.ofNat 8 s.sched.queue.length, BitVec.ofNat 8 s.notice.records.length, BitVec.ofNat 8 s.link.replies.length] ++
      encU16 s.link.rxFree ++ encLatch s.temp.lastValid ++
    [BitVec.ofNat 8 s.temp.band.val, BitVec.ofNat 8 s.temp.status.code, BitVec.ofNat 8 s.temp.drops.toNat,
      BitVec.ofNat 8 s.temp.comparator.code] ++ encLatch s.temp.bandLatch ++ encLatch s.temp.noticeLatch ++
    [BitVec.ofNat 8 (if s.wave.held.isSome then 1 else 0), BitVec.ofNat 8 (s.wave.held.elim 0 (·.mode.code)),
      BitVec.ofNat 8 (s.wave.held.elim 0 (·.band.val)), BitVec.ofNat 8 (if s.pixel.setUp then 1 else 0)] ++
      encU16 s.frame.counter.toNat := by
  have hflag : encFlag s.pixel.setUp = [BitVec.ofNat 8 (if s.pixel.setUp then 1 else 0)] := by cases s.pixel.setUp <;> rfl
  simp only [State.statusRecord, encHeld_eq, hflag, encU8, List.append_assoc, List.cons_append, List.nil_append]

theorem statusReported {s : State} {f : Frame} (hoff : s.offers f) (hk : f.kind = 0x01#8) (hn : f.payload = [])
    (hb : s.listsBounded) (ht : s.temp.sound) :
    ∃ p : List Byte, exec .status s = .next (s.released.replied f .ok p) ∧ p.length = 24 ∧
       u8At p 0 = s.rail.state.code ∧ u8At p 1 = s.rail.state.causeCode ∧ u8At p 2 = s.frame.activeCount ∧
       u8At p 3 = s.sched.queue.length ∧ u8At p 4 = s.notice.records.length ∧ u8At p 5 = s.link.replies.length ∧
       u16At p 6 = s.released.link.rxFree ∧ i16At p 8 = s.temp.lastValid.getD (-32768) ∧ u8At p 10 = s.temp.band.val ∧
       u8At p 11 = s.temp.status.code ∧ u8At p 12 = s.temp.drops.toNat ∧ u8At p 13 = s.temp.comparator.code ∧
       i16At p 14 = s.temp.bandLatch.getD (-32768) ∧ i16At p 16 = s.temp.noticeLatch.getD (-32768) ∧
       u8At p 18 = (if s.wave.held.isSome then 1 else 0) ∧ (∀ h, s.wave.held = some h →
         u8At p 19 = h.mode.code ∧ u8At p 20 = h.band.val) ∧ (s.wave.held = none → u8At p 19 = 0 ∧ u8At p 20 = 0) ∧
       u8At p 21 = (if s.pixel.setUp then 1 else 0) ∧ u16At p 22 = s.frame.counter.toNat := by
  obtain ⟨hqueue, hrecords, -, hreplies⟩ := hb
  obtain ⟨-, -, -, -, -, -, -, -, hlast, hband, hnotice⟩ := ht
  have hqcap : Config.queueCapacity = 8 := rfl
  have hrcap : Config.recordCapacity = 16 := rfl
  have hpcap : Config.replyCapacity = 32 := rfl
  have hfree : s.released.link.rxFree ≤ 16384 := Nat.sub_le _ _
  have hactive := s.frame.activeCount_le
  have hrail := s.rail.state.codes_le
  have hstatus : s.temp.status.code < 256 := by cases s.temp.status <;> decide
  have hcomparator : s.temp.comparator.code < 256 := by cases s.temp.comparator <;> decide
  obtain ⟨hlastMin, hlastMax⟩ := sample_getD_bounds hlast
  obtain ⟨hbandMin, hbandMax⟩ := sample_getD_bounds hband
  obtain ⟨hnoticeMin, hnoticeMax⟩ := sample_getD_bounds hnotice
  have hexec : exec .status s = .next (s.released.replied f .ok s.released.statusRecord) :=
    fixedRequest_of_offers (kind := Kind.status) hoff hk (by rw [hn]; rfl)
  refine ⟨s.released.statusRecord, hexec, ?_⟩
  rw [State.statusRecord_eq]
  simp only [State.released_rail, State.released_frame, State.released_sched, State.released_notice, State.released_replies,
    State.released_temp, State.released_wave, State.released_pixel]
  generalize s.released.link.rxFree = free at hfree ⊢
  refine ⟨rfl, u8At_of_getD rfl (by omega), u8At_of_getD rfl (by omega), u8At_of_getD rfl (by omega),
    u8At_of_getD rfl (by omega), u8At_of_getD rfl (by omega), u8At_of_getD rfl (by omega), u16At_of_getD rfl rfl (by omega),
    i16At_of_getD rfl rfl hlastMin hlastMax, u8At_of_getD rfl (by omega), u8At_of_getD rfl hstatus,
    u8At_of_getD rfl (BitVec.isLt _), u8At_of_getD rfl hcomparator, i16At_of_getD rfl rfl hbandMin hbandMax,
    i16At_of_getD rfl rfl hnoticeMin hnoticeMax, u8At_of_getD rfl (ite_bool_lt _),
    (heldFields_of_getD rfl rfl).1, (heldFields_of_getD rfl rfl).2,
    u8At_of_getD rfl (ite_bool_lt _), u16At_of_getD rfl rfl (BitVec.isLt _)⟩

/-! ### QUERY_QUEUE -/

theorem encEntry_eq (n : Nat) (e : PendingEntry) : encEntry n e =
    [BitVec.ofNat 8 n, if e.recovery then 0x01#8 else 0x00#8, e.tag.extractLsb' 0 8, e.tag.extractLsb' 8 8] ++
      encRect e.rect ++ encTileRect e.hull ++ [BitVec.ofNat 8 e.mode.code, BitVec.ofNat 8 e.policy.code] := by
  rw [encEntry, encTag_eq]
  rfl

theorem length_encEntry (n : Nat) (e : PendingEntry) : (encEntry n e).length = 18 := rfl

theorem queueReported {s : State} {f : Frame} (hoff : s.offers f) (hn : f.payload = []) (hk : f.kind = 0x42#8) :
    ∃ p, exec .queryQueue s = .next (s.released.replied f .ok p) ∧
       p.length = 2 + 18 * s.sched.queue.length ∧ p.take 2 = [BitVec.ofNat 8 s.sched.queue.length, 0x00#8] ∧
       ∀ n e, s.sched.queue[n]? = some e → (p.drop (2 + 18 * n)).take 18 =
         [BitVec.ofNat 8 n, if e.recovery then 0x01#8 else 0x00#8, e.tag.extractLsb' 0 8, e.tag.extractLsb' 8 8] ++
           encRect e.rect ++ encTileRect e.hull ++ [BitVec.ofNat 8 e.mode.code, BitVec.ofNat 8 e.policy.code] := by
  have hexec : exec .queryQueue s = .next (s.released.replied f .ok (BitVec.ofNat 8 s.sched.queue.length :: 0x00#8 ::
      s.sched.queue.zipIdx.flatMap fun x => encEntry x.2 x.1)) :=
    fixedRequest_of_offers (kind := Kind.queryQueue) hoff hk (by rw [hn]; rfl)
  refine ⟨_, hexec, ?_, rfl, fun n e he => ?_⟩
  · simp [List.length_flatMap, length_encEntry]
    omega
  · have hat : s.sched.queue.zipIdx[n]? = some (e, n) := by simp [he]
    rw [← encEntry_eq, Nat.add_comm, List.drop_succ_cons, List.drop_succ_cons]
    exact drop_take_flatMap (fun x _ => length_encEntry _ _) hat

/-! ### LIST_WAVEFORMS -/

theorem WaveformStore.mem_installed_iff (v : WaveformStore) (m : Mode) (b : Fin 8) (w : WaveformSet) :
    (m, b, w) ∈ v.installed ↔ v.set? m b = some w := by
  have hall : m ∈ Mode.all := by cases m <;> decide
  rw [WaveformStore.installed, List.mem_flatMap]
  constructor
  · rintro ⟨m', -, h⟩
    obtain ⟨b', -, h⟩ := List.mem_filterMap.mp h
    obtain ⟨w', hw, heq⟩ := Option.map_eq_some_iff.mp h
    cases heq
    exact hw
  · exact fun h => ⟨m, hall, List.mem_filterMap.mpr ⟨b, List.mem_finRange b, by rw [h]; rfl⟩⟩

/-- The place of an installed set among the forty. -/
def installedPlace (q : Mode × Fin 8 × WaveformSet) : Nat := 8 * q.1.code + q.2.1.val

theorem Mode.pairwise_all : Mode.all.Pairwise (fun m n => m.code < n.code) := by decide

theorem WaveformStore.pairwise_installed (v : WaveformStore) :
    v.installed.Pairwise fun q r => installedPlace q < installedPlace r := by
  rw [WaveformStore.installed, List.pairwise_flatMap]
  refine ⟨fun m _ => ?_, Mode.pairwise_all.imp fun {m n} hmn q hq r hr => ?_⟩
  · refine List.Pairwise.filterMap _ (fun b c hbc q hq r hr => ?_) (List.pairwise_lt_finRange 8)
    obtain ⟨-, -, rfl⟩ := Option.map_eq_some_iff.mp hq
    obtain ⟨-, -, rfl⟩ := Option.map_eq_some_iff.mp hr
    exact Nat.add_lt_add_left hbc _
  · obtain ⟨b, -, hq⟩ := List.mem_filterMap.mp hq
    obtain ⟨c, -, hr⟩ := List.mem_filterMap.mp hr
    obtain ⟨-, -, rfl⟩ := Option.map_eq_some_iff.mp hq
    obtain ⟨-, -, rfl⟩ := Option.map_eq_some_iff.mp hr
    have hb := b.isLt
    simp only [installedPlace]
    omega

/-- At most one set for each of the forty places. -/
theorem WaveformStore.length_installed_le (v : WaveformStore) : v.installed.length ≤ 40 := by
  have hrow : ∀ m : Mode, ((List.finRange 8).filterMap fun b => (v.set? m b).map fun w => (m, b, w)).length ≤ 8 :=
    fun m => (List.length_filterMap_le _ _).trans (by rw [List.length_finRange])
  have hclear := hrow .clear
  have htone16 := hrow .tone16
  have htone4 := hrow .tone4
  have hduo := hrow .duo
  have hquick := hrow .quick
  simp only [WaveformStore.installed, Mode.all, List.flatMap_cons, List.flatMap_nil, List.length_append, List.length_nil]
  omega

theorem FrameEngine.users_eq (e : FrameEngine) (m : Mode) (b : Fin 8) :
    e.users m b = (List.finRange 16).countP fun i => (e.slots[i]).any fun sl => sl.effective = m && sl.band = b := by
  rw [FrameEngine.users, FrameEngine.active, List.countP_filterMap]
  refine List.countP_congr fun i _ => ?_
  cases e.slots[i] <;> simp

theorem encSet_eq (m b : Nat) (w : WaveformSet) (users : Nat) : encSet m b w users =
    [BitVec.ofNat 8 m, BitVec.ofNat 8 b, BitVec.ofNat 8 w.length, BitVec.ofNat 8 w.sequences.length,
      w.crc.extractLsb' 0 8, w.crc.extractLsb' 8 8, BitVec.ofNat 8 users, 0x00#8] := by
  have hcrc : encU16 w.crc.toNat = [w.crc.extractLsb' 0 8, w.crc.extractLsb' 8 8] := encTag_eq w.crc
  rw [encSet, hcrc]
  rfl

theorem waveformsReported {s : State} {f : Frame} (hoff : s.offers f) (hn : f.payload = []) (hk : f.kind = 0x23#8) :
    ∃ p, exec .listWaveforms s = .next (s.released.replied f .ok p) ∧
       let sets := s.wave.installed
       (∀ m b w, (m, b, w) ∈ sets ↔ s.wave.set? m b = some w) ∧
       sets.Pairwise (fun q r => 8 * q.1.code + q.2.1.val < 8 * r.1.code + r.2.1.val) ∧
       p.length = 4 + 8 * sets.length ∧ u8At p 0 = sets.length ∧ u8At p 1 = (if s.wave.held.isSome then 1 else 0) ∧
       (∀ h, s.wave.held = some h → u8At p 2 = h.mode.code ∧ u8At p 3 = h.band.val) ∧
       (s.wave.held = none → u8At p 2 = 0 ∧ u8At p 3 = 0) ∧
       ∀ n m b w, sets[n]? = some (m, b, w) → (p.drop (4 + 8 * n)).take 8 =
         [BitVec.ofNat 8 m.code, BitVec.ofNat 8 b.val, BitVec.ofNat 8 w.length, BitVec.ofNat 8 w.sequences.length,
          w.crc.extractLsb' 0 8, w.crc.extractLsb' 8 8,
          BitVec.ofNat 8 ((List.finRange 16).countP fun i =>
            (s.frame.slots[i]).any fun sl => sl.effective = m && sl.band = b), 0x00#8] := by
  have hexec : exec .listWaveforms s = .next (s.released.replied f .ok (BitVec.ofNat 8 s.wave.installed.length ::
      (encHeld s.wave.held ++
        s.wave.installed.flatMap fun q => encSet q.1.code q.2.1.val q.2.2 (s.frame.users q.1 q.2.1)))) :=
    fixedRequest_of_offers (kind := Kind.listWaveforms) hoff hk (by rw [hn]; rfl)
  rw [encHeld_eq] at hexec
  have hlength := s.wave.length_installed_le
  refine ⟨_, hexec, s.wave.mem_installed_iff, s.wave.pairwise_installed, ?_, u8At_of_getD rfl (by omega),
    u8At_of_getD rfl (ite_bool_lt _), (heldFields_of_getD rfl rfl).1, (heldFields_of_getD rfl rfl).2, fun n m b w hw => ?_⟩
  · simp [List.length_flatMap, encSet_eq]
    omega
  · rw [← FrameEngine.users_eq, ← encSet_eq, Nat.add_comm]
    exact drop_take_flatMap (fun q _ => by rw [encSet_eq]; rfl) hw

/-! ### QUERY_SLOTS -/

theorem encSlot_some (sl : Slot) : encSlot (some sl) =
    [BitVec.ofNat 8 sl.phase.code,
      BitVec.ofNat 8 ((if sl.escalated then 1 else 0) + (if sl.recovery then 2 else 0)), sl.tag.extractLsb' 0 8,
      sl.tag.extractLsb' 8 8, BitVec.ofNat 8 sl.requested.code, BitVec.ofNat 8 sl.effective.code,
      BitVec.ofNat 8 sl.band.val, BitVec.ofNat 8 sl.index, BitVec.ofNat 8 sl.length, 0x00#8] ++
        encRect sl.rect ++ encTileRect sl.hull ++ encU32 sl.changed := by
  rw [encSlot, encTag_eq]
  rfl

theorem length_encSlot (o : Option Slot) : (encSlot o).length = 26 := by
  cases o <;> rfl

/-- The admission list as sent: the slot numbers, filled up with 0xFF. -/
def admissionBytes (l : List (Fin 16)) : List Byte :=
  (l.flatMap fun i => encU8 i.val) ++ List.replicate (16 - (l.flatMap fun i => encU8 i.val).length) 0xFF#8

theorem length_admissionBytes {l : List (Fin 16)} (h : l.length ≤ 16) : (admissionBytes l).length = 16 := by
  simp [admissionBytes, encU8, List.length_flatMap]
  omega

theorem u8At_admissionBytes {l : List (Fin 16)} {n : Nat} (hn : n < 16) :
    u8At (admissionBytes l) n = ((l[n]?).map Fin.val).getD 255 := by
  have hmap : (l.flatMap fun i => encU8 i.val) = l.map fun i => BitVec.ofNat 8 i.val := List.flatMap_pure_eq_map _ _
  rw [admissionBytes, hmap, List.length_map, u8At, List.getD_eq_getElem?_getD]
  rcases lt_or_ge n l.length with hin | hout
  · have hlt := l[n].isLt
    rw [List.getElem?_append_left (by simpa using hin), List.getElem?_map, List.getElem?_eq_getElem hin]
    simp only [Option.map_some, Option.getD_some, BitVec.toNat_ofNat]
    omega
  · rw [List.getElem?_append_right (by simpa using hout), List.length_map,
      List.getElem?_replicate_of_lt (by omega), List.getElem?_eq_none hout]
    rfl

theorem slotsReported {s : State} {f : Frame} (hoff : s.offers f) (hn : f.payload = []) (hk : f.kind = 0x61#8)
    (hl : s.frame.admissions.length ≤ 16) :
    ∃ p, exec .querySlots s = .next (s.released.replied f .ok p) ∧ p.length = 436 ∧
         u16At p 0 = s.frame.counter.toNat ∧ u8At p 2 = s.frame.activeCount ∧
         (∀ n : Nat, n < 16 → u8At p (4 + n) = ((s.frame.admissions[n]?).map Fin.val).getD 255) ∧
         ∀ i : Fin 16, (p.drop (20 + 26 * i.val)).take 26 = encSlot s.frame.slots[i] := by
  have hexec : exec .querySlots s = .next (s.released.replied f .ok (BitVec.ofNat 8 s.frame.counter.toNat ::
      BitVec.ofNat 8 (s.frame.counter.toNat / 256) :: BitVec.ofNat 8 s.frame.activeCount :: 0x00#8 ::
        (admissionBytes s.frame.admissions ++ s.frame.slots.toList.flatMap encSlot))) :=
    fixedRequest_of_offers (kind := Kind.querySlots) hoff hk (by rw [hn]; rfl)
  have horder := length_admissionBytes hl
  have hactive := s.frame.activeCount_le
  refine ⟨_, hexec, ?_, u16At_of_getD rfl rfl (BitVec.isLt _), u8At_of_getD rfl (by omega), fun n hn => ?_, fun i => ?_⟩
  · simp [List.length_flatMap, length_encSlot, horder]
  · rw [← u8At_admissionBytes hn, Nat.add_comm]
    simp only [u8At_succ]
    rw [u8At, u8At, List.getD_append _ _ _ _ (by omega)]
  · have hat : s.frame.slots.toList[i.val]? = some s.frame.slots[i] := by simp
    rw [show 20 + 26 * i.val = 16 + 26 * i.val + 4 by omega, List.drop_succ_cons, List.drop_succ_cons, List.drop_succ_cons,
      List.drop_succ_cons, ← List.drop_drop, List.drop_left' horder]
    exact drop_take_flatMap (fun o _ => length_encSlot o) hat

/-! ### The obligation -/

/-- Settles O17: the record of STATUS field by field, the blocks of the three listings, and the numbers and codes in them. -/
theorem stateReported : Obligations.StateReported := by
  refine ⟨fun s f hoff hk hn hb ht => statusReported hoff hk hn hb ht,
    fun s f hoff hn => ⟨queueReported hoff hn, waveformsReported hoff hn, fun hk hl => ?_⟩,
    ⟨fun p i => ⟨rfl, rfl, i16At_eq p i, ?_, rfl, rfl⟩, fun n => ⟨rfl, encU32_eq n⟩, fun z => encI16_eq, fun _ => rfl,
      fun _ => rfl⟩,
    by decide, by decide, by decide, by decide, by decide, by decide, fun n => ⟨rfl, rfl⟩, by decide, by decide, by decide⟩
  · obtain ⟨p, hexec, hlength, hcounter, hactive, horder, hslots⟩ := slotsReported hoff hn hk hl
    refine ⟨p, hexec, hlength, hcounter, hactive, horder, fun i => (hslots i).trans ?_⟩
    cases s.frame.slots[i] with
    | none => rfl
    | some sl => exact encSlot_some sl
  · rw [tagAt, BitVec.toNat_ofNat, Nat.mod_eq_of_lt (u16At_lt p i)]

end Sys2Proof.Machine
end
